-- ==== Sys2Proof/Word.lean ====
section
/-! DEFINITION. The word types of the block: a command word, a register word, and the fields that the
spec treats as bits (00_scope.md R11, R16, 30_encoding.md R100, R101, 10_state.md R64). -/

namespace Sys2Proof

/-- A command word, 32 bits, accepted whole at the command port (30_encoding.md R100). -/
abbrev Word := BitVec 32

/-- A register of the register port, 16 bits (10_state.md R64). -/
abbrev Half := BitVec 16

/-- A register address, 8 bits (10_state.md R64). -/
abbrev RegAddr := BitVec 8

/-- A MIDI channel, held as the channel number minus 1 (00_scope.md R16). -/
abbrev MidiChannel := BitVec 4

/-- A 7-bit MIDI datum: note number, velocity, control number or control value (00_scope.md R8). -/
abbrev Data7 := BitVec 7

end Sys2Proof
end

