-- ==== Sys2Proof/Config.lean ====
section
/-! DEFINITION. The parameters that the spec leaves to an implementation (00_scope.md R9): 'The model takes
each as a configuration field.' A machine state carries one `Config`, which no step writes
(notes/assumptions/3.md); the spec's default values are in Machine/Defaults.lean. -/

namespace Sys2Proof

/-- The twelve control-change actions performed on one CV channel (42_control_change.md R204 to R215). -/
inductive ChanAction
  | trigLen | pbRange | portaOn | portaTime | portaAsc | portaDesc
  | vibRate | vibDepth | vibDelay | vibSyncOn | retrigMode | trigMode
  deriving DecidableEq, Repr

/-- The two control-change actions performed once, on a global setting (42_control_change.md R216, R217). -/
inductive GlobalAction
  | advWidth | clkDiv
  deriving DecidableEq, Repr

/-- One of the fourteen actions of `CC_MAP`, with its scope (42_control_change.md R201). -/
inductive CcAction
  | chan (a : ChanAction)
  | global (a : GlobalAction)
  deriving DecidableEq, Repr

/-- The pair `(lo, hi)` of a linear scaling, in the width of the register that the action writes: R203 asks
that the result stay inside that width, and a pair of that width cannot do otherwise
(notes/assumptions/5.md). -/
structure Scale (w : Nat) where
  lo : BitVec w
  hi : BitVec w
  deriving DecidableEq, Repr

/-- `CC_SCALE`: one pair for each action that scales linearly (42_control_change.md R203). -/
structure CcScale where
  trigLen   : Scale 16
  pbRange   : Scale 7
  portaTime : Scale 16
  portaAsc  : Scale 16
  portaDesc : Scale 16
  vibRate   : Scale 16
  vibDepth  : Scale 12
  vibDelay  : Scale 16
  advWidth  : Scale 8
  deriving DecidableEq, Repr

/-- The configuration of a run (00_scope.md R9, 10_state.md R20). -/
structure Config where
  /-- `NOTE_MIN`, lowest note the DAC represents. -/
  noteMin : Data7
  /-- `NOTE_MAX`, highest note the DAC represents. -/
  noteMax : Data7
  /-- `NOMINAL_SCALE`, DAC codes per semitone, unsigned Q8.8 (R14). -/
  nominalScale : Half
  /-- `CAL_DEFAULT[0..10]`, the reset value of every calibration point (10_state.md R49). -/
  calDefault : Vector Half 11
  /-- `VEL_MAX`, largest duty of the velocity output. -/
  velMax : Half
  /-- `DAC_CFG[0]`, the configuration bits of CV-A's DAC frame. -/
  dacCfgA : BitVec 4
  /-- `DAC_CFG[1]`, the configuration bits of CV-B's DAC frame. -/
  dacCfgB : BitVec 4
  /-- `CC_MAP` as a lookup table: a number with no entry maps to `none` (42_control_change.md R201,
  notes/assumptions/13.md). -/
  ccMap : List (Data7 × CcAction)
  /-- `CC_SCALE` (42_control_change.md R203). -/
  ccScale : CcScale
  /-- `SW_POLL_TICKS`, milliseconds between two polls of the standard schedule (45_system.md R292). -/
  swPollTicks : Nat
  /-- `ADV_UNIT_US`, the unit of the advance-pulse width; no rule depends on it (R10). -/
  advUnitUs : Nat
  deriving DecidableEq, Repr

end Sys2Proof
end

