-- ==== Sys2Proof/Syntax.lean ====
section
/-! DEFINITION. The commands of the block, one constructor per row of the opcode map
(30_encoding.md R106), with the operands of R105 in the widths the encoding gives them. -/

namespace Sys2Proof

/-- A CV channel: `a` is CV-A (index 0), `b` is CV-B (index 1) (00_scope.md R3). -/
inductive Chan
  | a | b
  deriving DecidableEq, Repr

/-- The operating mode: `ccs` = ClockControlled, `kcs` = KeyboardControlled (00_scope.md R19). -/
inductive Mode
  | ccs | kcs
  deriving DecidableEq, Repr

/-- The fifteen commands (30_encoding.md R106). Every operand value of the encoding is a value of the
operand's type and no other value is, so a command is well formed by construction. -/
inductive Instr
  /-- `NOP` (45_system.md R290). -/
  | nop
  /-- `TICK` (45_system.md R291). -/
  | tick
  /-- `PROGRESS` (41_cv_pipeline.md R180). -/
  | progress
  /-- `POLL sw, sync` (43_sequencer.md R239). -/
  | poll (sw : Mode) (sync : Bool)
  /-- `ALL_NOTES_OFF cv` (40_cv_channel.md R146). -/
  | allNotesOff (c : Chan)
  /-- `REG_WRITE addr, data` (45_system.md R293). -/
  | regWrite (addr : RegAddr) (data : Half)
  /-- `REG_READ addr` (45_system.md R294). -/
  | regRead (addr : RegAddr)
  /-- `NOTE_OFF ch, note, vel` (44_router.md R266). -/
  | noteOff (ch : MidiChannel) (note vel : Data7)
  /-- `NOTE_ON ch, note, vel` (44_router.md R262). -/
  | noteOn (ch : MidiChannel) (note vel : Data7)
  /-- `CC ch, num, val` (44_router.md R270). -/
  | cc (ch : MidiChannel) (num val : Data7)
  /-- `PBEND ch, amount`, the amount in two's complement (44_router.md R272, 30_encoding.md R102). -/
  | pbend (ch : MidiChannel) (amount : BitVec 14)
  /-- `CLOCK` (43_sequencer.md R238). -/
  | clock
  /-- `START` (43_sequencer.md R235). -/
  | start
  /-- `CONTINUE` (43_sequencer.md R237). -/
  | cont
  /-- `STOP` (43_sequencer.md R236). -/
  | stop
  deriving DecidableEq, Repr

end Sys2Proof
end

