-- ==== Sys2Proof/WellFormed.lean ====
section
/-! DEFINITION. What a legal command and a legal configuration are. An `Instr` is legal by construction; a
command as it is WRITTEN (30_encoding.md R110) carries plain numbers, and `SourceLine.problem` names the first
thing wrong with it. `Config.problem` does the same for a configuration (00_scope.md R9). -/

namespace Sys2Proof

/-- The fifteen mnemonics (30_encoding.md R106). -/
inductive Mnemonic
  | nop | tick | progress | poll | allNotesOff | regWrite | regRead | noteOff | noteOn | cc | pbend
  | clock | start | cont | stop
  deriving DecidableEq, Repr

/-- A command as R110 writes it: the mnemonic and its operands, MIDI channels counted from 1. -/
structure SourceLine where
  mnemonic : Mnemonic
  operands : List Int
  deriving DecidableEq, Repr

/-- What can be wrong with a written command. -/
inductive LineProblem
  /-- Too few or too many operands. -/
  | operandCount
  /-- The operand of this index (from 0) is outside its range. -/
  | operandRange (index : Nat)
  deriving DecidableEq, Repr

/-- A closed range of integers. -/
structure Range where
  lo : Int
  hi : Int
  deriving DecidableEq, Repr

/-- Whether a range holds an integer. -/
def Range.holds (r : Range) (v : Int) : Bool := decide (r.lo ≤ v) && decide (v ≤ r.hi)

/-- The operand ranges of each command (30_encoding.md R110). -/
def Mnemonic.ranges : Mnemonic → List Range
  | .nop | .tick | .progress | .clock | .start | .cont | .stop => []
  | .poll => [⟨0, 1⟩, ⟨0, 1⟩]
  | .allNotesOff => [⟨0, 1⟩]
  | .regWrite => [⟨0, 255⟩, ⟨0, 65535⟩]
  | .regRead => [⟨0, 255⟩]
  | .noteOff | .noteOn | .cc => [⟨1, 16⟩, ⟨0, 127⟩, ⟨0, 127⟩]
  | .pbend => [⟨1, 16⟩, ⟨-8192, 8191⟩]

/-- The first operand that is outside its range, counted from `index`. -/
def firstOutside (index : Nat) : List Range → List Int → Option LineProblem
  | r :: rs, v :: vs => if r.holds v then firstOutside (index + 1) rs vs else some (.operandRange index)
  | [], [] => none
  | _, _ => some .operandCount

/-- The first thing wrong with a written command, or `none` (30_encoding.md R110). -/
def SourceLine.problem (l : SourceLine) : Option LineProblem :=
  if l.operands.length = l.mnemonic.ranges.length then firstOutside 0 l.mnemonic.ranges l.operands
  else some .operandCount

/-- A written command that R110 admits. -/
abbrev SourceLine.WellFormed (l : SourceLine) : Prop := l.problem = none

/-- What can be wrong with a configuration. -/
inductive ConfigProblem
  /-- `NOTE_MIN` above `NOTE_MAX`: the range of 41_cv_pipeline.md R161 is empty. -/
  | emptyNoteRange
  /-- A control number listed twice in `CC_MAP`, which is a function (42_control_change.md R201). -/
  | duplicateCcNumber
  /-- `SW_POLL_TICKS` is 0: the schedule of 45_system.md R292 has no such period. -/
  | zeroPollPeriod
  deriving DecidableEq, Repr

/-- The first thing wrong with a configuration, or `none`. -/
def Config.problem (cfg : Config) : Option ConfigProblem :=
  if cfg.noteMax < cfg.noteMin then some .emptyNoteRange
  else if ¬ (cfg.ccMap.map Prod.fst).Nodup then some .duplicateCcNumber
  else if cfg.swPollTicks = 0 then some .zeroPollPeriod
  else none

/-- A configuration that the spec admits. -/
abbrev Config.WellFormed (cfg : Config) : Prop := cfg.problem = none

end Sys2Proof
end

