-- ==== Sys2Proof/Decode.lean ====
section
/-! DEFINITION. The decoder from command words, total on every word and rejecting by name; the encoder; and the
opcode map as rows (30_encoding.md R100 to R107). -/

namespace Sys2Proof

/-- Why a word is no command (30_encoding.md R107). A reserved word is not an error: the block executes it
as `NOP` (45_system.md R295). -/
inductive Reserved
  /-- Major opcode 0x3 to 0x7, 0xA, 0xC or 0xD. -/
  | majorOpcode
  /-- Major opcode 0x0 or 0xF with a sub-opcode that no row has. -/
  | subOpcode
  /-- A bit that must be 0 is set. -/
  | mustBeZero
  deriving DecidableEq, Repr

/-- The field of `len` bits whose lowest bit is bit `lo` (00_scope.md R11). -/
def field (w : Word) (lo len : Nat) : BitVec len := w.extractLsb' lo len

/-- The CV channel of an index bit (30_encoding.md R105). -/
def chanOfBit (b : BitVec 1) : Chan := if b = 1#1 then .b else .a

/-- The index bit of a CV channel (00_scope.md R3). -/
def Chan.bit : Chan → BitVec 1
  | .a => 0#1
  | .b => 1#1

/-- The mode of a bit (00_scope.md R19). -/
def modeOfBit (b : BitVec 1) : Mode := if b = 1#1 then .kcs else .ccs

/-- The bit of a mode (00_scope.md R19). -/
def Mode.bit : Mode → BitVec 1
  | .ccs => 0#1
  | .kcs => 1#1

/-- `i` when the must-be-zero bits are 0, else rejected (30_encoding.md R107). -/
def whenZero {n : Nat} (zero : BitVec n) (i : Instr) : Except Reserved Instr :=
  if zero = 0#n then .ok i else .error .mustBeZero

/-- Format S with major opcode 0x0 (30_encoding.md R103, R106). -/
def decodeSystem (w : Word) : Except Reserved Instr :=
  match (field w 24 4).toNat with
  | 0x0 => whenZero (field w 0 24) .nop
  | 0x1 => whenZero (field w 0 24) .tick
  | 0x2 => whenZero (field w 0 24) .progress
  | 0x3 => whenZero (field w 2 22) (.poll (modeOfBit (field w 0 1)) (field w 1 1 = 1#1))
  | 0x4 => whenZero (field w 1 23) (.allNotesOff (chanOfBit (field w 0 1)))
  | _ => .error .subOpcode

/-- Format S with major opcode 0xF (30_encoding.md R103, R106). -/
def decodeRealtime (w : Word) : Except Reserved Instr :=
  match (field w 24 4).toNat with
  | 0x8 => whenZero (field w 0 24) .clock
  | 0xA => whenZero (field w 0 24) .start
  | 0xB => whenZero (field w 0 24) .cont
  | 0xC => whenZero (field w 0 24) .stop
  | _ => .error .subOpcode

/-- Format V: a channel and two 7-bit operands, with bits 23, 15 and 7 to 0 clear (30_encoding.md R101). -/
def decodeVoice (make : MidiChannel → Data7 → Data7 → Instr) (w : Word) : Except Reserved Instr :=
  whenZero (field w 23 1 ++ field w 15 1 ++ field w 0 8) (make (field w 24 4) (field w 16 7) (field w 8 7))

/-- The decoder of the opcode map (30_encoding.md R106). -/
def decode (w : Word) : Except Reserved Instr :=
  match (field w 28 4).toNat with
  | 0x0 => decodeSystem w
  | 0x1 => whenZero (field w 24 4) (.regWrite (field w 16 8) (field w 0 16))
  | 0x2 => whenZero (field w 24 4 ++ field w 0 16) (.regRead (field w 16 8))
  | 0x8 => decodeVoice .noteOff w
  | 0x9 => decodeVoice .noteOn w
  | 0xB => decodeVoice .cc w
  | 0xE => whenZero (field w 14 10) (.pbend (field w 24 4) (field w 0 14))
  | 0xF => decodeRealtime w
  | _ => .error .majorOpcode

/-- Format V (30_encoding.md R101). -/
def encodeVoice (op : BitVec 4) (ch : MidiChannel) (d1 d2 : Data7) : Word :=
  op ++ ch ++ 0#1 ++ d1 ++ 0#1 ++ d2 ++ 0#8

/-- Format S with no operand (30_encoding.md R103). -/
def encodeSystem (op sub : BitVec 4) : Word := op ++ sub ++ 0#24

/-- The word of a command (30_encoding.md R101 to R106). -/
def encode : Instr → Word
  | .nop => encodeSystem 0x0#4 0x0#4
  | .tick => encodeSystem 0x0#4 0x1#4
  | .progress => encodeSystem 0x0#4 0x2#4
  | .poll sw sync => 0x0#4 ++ 0x3#4 ++ 0#22 ++ BitVec.ofBool sync ++ sw.bit
  | .allNotesOff c => 0x0#4 ++ 0x4#4 ++ 0#23 ++ c.bit
  | .regWrite addr data => 0x1#4 ++ 0#4 ++ addr ++ data
  | .regRead addr => 0x2#4 ++ 0#4 ++ addr ++ 0#16
  | .noteOff ch note vel => encodeVoice 0x8#4 ch note vel
  | .noteOn ch note vel => encodeVoice 0x9#4 ch note vel
  | .cc ch num val => encodeVoice 0xB#4 ch num val
  | .pbend ch amount => 0xE#4 ++ ch ++ 0#10 ++ amount
  | .clock => encodeSystem 0xF#4 0x8#4
  | .start => encodeSystem 0xF#4 0xA#4
  | .cont => encodeSystem 0xF#4 0xB#4
  | .stop => encodeSystem 0xF#4 0xC#4

/-- One row of the opcode map: a word `w` is the row's command when `w &&& mask = value`
(30_encoding.md R106). -/
structure OpcodeRow where
  value : Word
  mask : Word
  deriving DecidableEq, Repr

/-- Whether a word is the command of a row (30_encoding.md R106). -/
def OpcodeRow.hits (r : OpcodeRow) (w : Word) : Bool := w &&& r.mask == r.value

/-- The row of each mnemonic (30_encoding.md R106). -/
def Mnemonic.row : Mnemonic → OpcodeRow
  | .nop => ⟨0x00000000, 0xFFFFFFFF⟩
  | .tick => ⟨0x01000000, 0xFFFFFFFF⟩
  | .progress => ⟨0x02000000, 0xFFFFFFFF⟩
  | .poll => ⟨0x03000000, 0xFFFFFFFC⟩
  | .allNotesOff => ⟨0x04000000, 0xFFFFFFFE⟩
  | .regWrite => ⟨0x10000000, 0xFF000000⟩
  | .regRead => ⟨0x20000000, 0xFF00FFFF⟩
  | .noteOff => ⟨0x80000000, 0xF08080FF⟩
  | .noteOn => ⟨0x90000000, 0xF08080FF⟩
  | .cc => ⟨0xB0000000, 0xF08080FF⟩
  | .pbend => ⟨0xE0000000, 0xF0FFC000⟩
  | .clock => ⟨0xF8000000, 0xFFFFFFFF⟩
  | .start => ⟨0xFA000000, 0xFFFFFFFF⟩
  | .cont => ⟨0xFB000000, 0xFFFFFFFF⟩
  | .stop => ⟨0xFC000000, 0xFFFFFFFF⟩

/-- The mnemonics in the order of the opcode map. -/
def Mnemonic.all : List Mnemonic :=
  [.nop, .tick, .progress, .poll, .allNotesOff, .regWrite, .regRead, .noteOff, .noteOn, .cc, .pbend,
   .clock, .start, .cont, .stop]

/-- The mnemonic of a command. -/
def Instr.mnemonic : Instr → Mnemonic
  | .nop => .nop
  | .tick => .tick
  | .progress => .progress
  | .poll _ _ => .poll
  | .allNotesOff _ => .allNotesOff
  | .regWrite _ _ => .regWrite
  | .regRead _ => .regRead
  | .noteOff _ _ _ => .noteOff
  | .noteOn _ _ _ => .noteOn
  | .cc _ _ _ => .cc
  | .pbend _ _ => .pbend
  | .clock => .clock
  | .start => .start
  | .cont => .cont
  | .stop => .stop

/-- The word that an opcode-table row of `nbits` bits stands for: the bits above `nbits` are 0. -/
def tableWord (nbits w : Nat) : Word := BitVec.ofNat 32 (w % 2 ^ nbits)

/-- The command that the decoder reads from the low `nbits` bits of `w`. -/
def decodeTableWord (nbits w : Nat) : Option Instr := (decode (tableWord nbits w)).toOption

end Sys2Proof
end

