-- ==== Sys2Proof/Machine/Defaults.lean ====
section
/-! DEFINITION. The spec's default value of every parameter (00_scope.md R9, 42_control_change.md R201, R203). They
are the spec's own choice, not the firmware's (notes/assumptions/4.md). -/

namespace Sys2Proof.Machine

/-- The default `CC_MAP` (42_control_change.md R201). -/
def defaultCcMap : List (Data7 × CcAction) :=
  [(5, .chan .portaTime), (16, .chan .portaAsc), (17, .chan .portaDesc), (18, .chan .trigLen),
   (19, .chan .pbRange), (20, .global .advWidth), (21, .global .clkDiv), (65, .chan .portaOn),
   (76, .chan .vibRate), (77, .chan .vibDepth), (78, .chan .vibDelay), (80, .chan .vibSyncOn),
   (81, .chan .retrigMode), (82, .chan .trigMode)]

/-- The default `CC_SCALE` (42_control_change.md R203). -/
def defaultCcScale : CcScale where
  trigLen := ⟨1, 128⟩
  pbRange := ⟨0, 24⟩
  portaTime := ⟨0, 2540⟩
  portaAsc := ⟨0, 2540⟩
  portaDesc := ⟨0, 2540⟩
  vibRate := ⟨2000, 50⟩
  vibDepth := ⟨0, 127⟩
  vibDelay := ⟨0, 2540⟩
  advWidth := ⟨1, 128⟩

/-- The default configuration (00_scope.md R9). -/
def defaultConfig : Config where
  noteMin := 0
  noteMax := 120
  nominalScale := 0x2220
  calDefault := Vector.replicate 11 0x2220
  velMax := 255
  dacCfgA := 0x1
  dacCfgB := 0x9
  ccMap := defaultCcMap
  ccScale := defaultCcScale
  swPollTicks := 20
  advUnitUs := 100

end Sys2Proof.Machine
end

