-- ==== Sys2Proof/Machine/State.lean ====
section
/-! DEFINITION. The state of the block, all of it, as plain data (10_state.md R20 to R62), the state after reset
(R67), and why a step can stop. -/

namespace Sys2Proof.Machine

/-- `TRIG_MODE` (10_state.md R40). -/
inductive TrigMode
  | none | trig | gate
  deriving DecidableEq, Repr

/-- `RETRIG_MODE` (10_state.md R41). -/
inductive RetrigMode
  | off | highest | lowest | latest
  deriving DecidableEq, Repr

/-- `VIB_MODE` (10_state.md R44). -/
inductive VibMode
  | off | free | tempoSync
  deriving DecidableEq, Repr

/-- `VIB_SHAPE` (10_state.md R45). -/
inductive VibShape
  | bipolar | halfWave | rectified
  deriving DecidableEq, Repr

/-- The output events of the trace (10_state.md R62). -/
inductive OutEvent
  /-- One DAC frame sent for a channel. -/
  | dac (c : Chan) (frame : Half)
  /-- A change or re-assertion of a channel's gate/trigger line. -/
  | line (c : Chan) (level : Bool)
  /-- A new duty of a channel's velocity output. -/
  | vel (c : Chan) (duty : Half)
  /-- One clock-advance pulse. -/
  | adv
  /-- The answer to a register read. -/
  | rdata (value : Half)
  deriving DecidableEq, Repr

/-- The runtime registers of a channel (10_state.md R22 to R32). -/
structure Runtime where
  /-- `held`, one bit per note (R22). -/
  held : BitVec 128
  /-- `hist_buf`, the latest-notes ring (R23). -/
  histBuf : Vector Data7 20
  /-- `hist_head`, the cell the next put writes (R24). -/
  histHead : BitVec 5
  /-- `hist_cnt`, the number of valid cells (R24). -/
  histCnt : BitVec 5
  /-- `have_note` (R25). -/
  haveNote : Bool
  /-- `start_note` (R26). -/
  startNote : Data7
  /-- `end_note` (R26). -/
  endNote : Data7
  /-- `sliding` (R27). -/
  sliding : Bool
  /-- `slide_t0` (R28). -/
  slideT0 : BitVec 32
  /-- `slide_dur` (R29). -/
  slideDur : Half
  /-- `vib`, cents in two's complement (R30). -/
  vib : Half
  /-- `pb`, the bend amount in two's complement (R31). -/
  pb : BitVec 14
  /-- `t_on` (R32). -/
  tOn : BitVec 32
  deriving DecidableEq, Repr

/-- The output registers of a channel (10_state.md R34 to R37). -/
structure Outputs where
  /-- `trig_line` (R34). -/
  trigLine : Bool
  /-- `trig_cnt`, ticks left before the line falls; 0 is no timer (R35). -/
  trigCnt : Half
  /-- `dac_code` (R36). -/
  dacCode : BitVec 12
  /-- `vel_duty` (R37, notes/assumptions/5.md). -/
  velDuty : Half
  deriving DecidableEq, Repr

/-- The settings of a channel (10_state.md R40 to R49). -/
structure Settings where
  trigMode : TrigMode
  retrigMode : RetrigMode
  trigLen : Half
  portaEn : Bool
  portaAsc : Half
  portaDesc : Half
  vibMode : VibMode
  vibShape : VibShape
  /-- `VIB_PHASE_Q`, quarter periods (R45). -/
  vibPhaseQ : BitVec 2
  vibPeriod : Half
  vibSync : BitVec 8
  vibDepth : BitVec 12
  vibDelay : Half
  pbRange : Data7
  /-- `CAL[0..10]`, unsigned Q8.8 (R49). -/
  cal : Vector Half 11
  deriving DecidableEq, Repr

/-- One CV channel (00_scope.md R3). -/
structure Channel where
  rt : Runtime
  out : Outputs
  set : Settings
  deriving DecidableEq, Repr

/-- The sequencer registers (10_state.md R51 to R54). -/
structure Sequencer where
  /-- `step`, the tracked step, 0 to 8 (R51). -/
  step : BitVec 4
  /-- `cnt`, the clock-pulse counter, 0 to 24 (R52). -/
  cnt : BitVec 5
  following : Bool
  mode : Mode
  deriving DecidableEq, Repr

/-- The global settings (10_state.md R55 to R60). -/
structure Routing where
  chanA : MidiChannel
  chanB : MidiChannel
  chanKbd : MidiChannel
  poly : Bool
  suppressVelBKcs : Bool
  /-- `CLK_DIV`, 1 to 24 (R58). -/
  clkDiv : BitVec 5
  advWidth : BitVec 8
  kbdMap : Vector (BitVec 8) 8
  tempoAvg : Half
  deriving DecidableEq, Repr

/-- The state of the block. -/
structure State where
  /-- The configuration of the run; no step writes it (10_state.md R20, notes/assumptions/3.md). -/
  cfg : Config
  /-- `ms`, the millisecond counter (R21). -/
  ms : BitVec 32
  cvA : Channel
  cvB : Channel
  seq : Sequencer
  routing : Routing
  /-- `ms_hi_latch` (R61). -/
  msHiLatch : Half
  /-- `adv_count` (R62). -/
  advCount : Half
  /-- The output trace, oldest event first (R62). -/
  trace : List OutEvent
  /-- The MODEL's own field: the command words presented at the command port and not yet executed, the next
  one first (notes/assumptions/1.md). -/
  port : List Word
  deriving DecidableEq, Repr

/-- Why the machine stops: never. 'The block raises no exception, takes no trap, has no fault, no abort and no
error return' (60_exceptions.md R310), so the type has no constructor. -/
inductive Fault
  deriving DecidableEq, Repr

/-- Why the model gives an instruction no meaning. -/
inductive Refusal
  /-- Raised by an arm of `exec` for an instruction whose meaning is not written. Safe: it claims nothing of
  the block. No arm raises it: every instruction has its meaning. -/
  | notModelled (mnemonic : String)
  deriving DecidableEq, Repr

/-- The runtime registers after reset (10_state.md R67). -/
def Runtime.reset : Runtime where
  held := 0
  histBuf := Vector.replicate 20 0
  histHead := 0
  histCnt := 0
  haveNote := false
  startNote := 0
  endNote := 0
  sliding := false
  slideT0 := 0
  slideDur := 0
  vib := 0
  pb := 0
  tOn := 0

/-- The output registers after reset (10_state.md R67). -/
def Outputs.reset : Outputs where
  trigLine := false
  trigCnt := 0
  dacCode := 0
  velDuty := 0

/-- The settings of a channel after reset (10_state.md R67). -/
def Settings.reset (cfg : Config) : Settings where
  trigMode := .trig
  retrigMode := .off
  trigLen := 2
  portaEn := false
  portaAsc := 0
  portaDesc := 0
  vibMode := .free
  vibShape := .bipolar
  vibPhaseQ := 0
  vibPeriod := 200
  vibSync := 24
  vibDepth := 0
  vibDelay := 0
  pbRange := 2
  cal := cfg.calDefault

/-- A channel after reset. -/
def Channel.reset (cfg : Config) : Channel where
  rt := Runtime.reset
  out := Outputs.reset
  set := Settings.reset cfg

/-- The sequencer registers after reset, for the level of the mode switch at that moment (10_state.md R54,
R67). -/
def Sequencer.reset (mode : Mode) : Sequencer where
  step := 0
  cnt := 0
  following := false
  mode := mode

/-- The global settings after reset (10_state.md R67). -/
def Routing.reset : Routing where
  chanA := 0
  chanB := 1
  chanKbd := 2
  poly := false
  suppressVelBKcs := true
  clkDiv := 4
  advWidth := 10
  kbdMap := #v[60, 61, 62, 63, 64, 65, 66, 67]
  tempoAvg := 0

/-- The machine right after reset, for a configuration and a launch level of the mode switch
(10_state.md R54, R67, 70_reset_and_hazards.md R341). No command is presented yet. -/
def State.launch (cfg : Config) (mode : Mode) : State where
  cfg := cfg
  ms := 0
  cvA := Channel.reset cfg
  cvB := Channel.reset cfg
  seq := Sequencer.reset mode
  routing := Routing.reset
  msHiLatch := 0
  advCount := 0
  trace := []
  port := []

/-- The machine right after reset with the default parameters, the mode switch at CCS
(DESIGN CHOICE, notes/assumptions/2.md, 3.md). -/
def State.reset : State := State.launch defaultConfig .ccs

end Sys2Proof.Machine
end

