-- ==== Sys2Proof/Machine/Registers.lean ====
section
/-! DEFINITION. The register map: a name for every register of the register port and its address
(10_state.md R64 to R66, 20_memory.md R88). -/

namespace Sys2Proof.Machine

/-- The settings registers of one channel (10_state.md R65). -/
inductive SetReg
  | trigCfg | trigLen | portaCfg | portaAsc | portaDesc | vibCfg | vibPeriod | vibSync | vibDepth
  | vibDelay | pbRange
  | cal (k : Fin 11)
  deriving DecidableEq, Repr

/-- The status registers of one channel (10_state.md R66). -/
inductive StatReg
  | dacCode | velDuty | notes | pb | vibOff | hist | trigCnt
  deriving DecidableEq, Repr

/-- Every register of the register space (10_state.md R65, R66). -/
inductive Reg
  | chans | alloc | clkDiv | advWidth | tempoAvg
  | kbdMap (i : Fin 8)
  | setting (c : Chan) (r : SetReg)
  | status | seqPos | msLo | msHi | advCount
  | chanStatus (c : Chan) (r : StatReg)
  deriving DecidableEq, Repr

/-- The offset of a settings register from its channel's base (10_state.md R65). -/
def SetReg.offset : SetReg → Nat
  | .trigCfg => 0x00
  | .trigLen => 0x01
  | .portaCfg => 0x02
  | .portaAsc => 0x03
  | .portaDesc => 0x04
  | .vibCfg => 0x05
  | .vibPeriod => 0x06
  | .vibSync => 0x07
  | .vibDepth => 0x08
  | .vibDelay => 0x09
  | .pbRange => 0x0A
  | .cal k => 0x10 + k.val

/-- The offset of a status register from its channel's base (10_state.md R66). -/
def StatReg.offset : StatReg → Nat
  | .dacCode => 0
  | .velDuty => 1
  | .notes => 2
  | .pb => 3
  | .vibOff => 4
  | .hist => 5
  | .trigCnt => 6

/-- `B`, the base of a channel's settings registers (10_state.md R65). -/
def setBase : Chan → Nat
  | .a => 0x20
  | .b => 0x40

/-- `S`, the base of a channel's status registers (10_state.md R66). -/
def statBase : Chan → Nat
  | .a => 0x90
  | .b => 0x98

/-- The address of a register (10_state.md R65, R66). -/
def Reg.addr : Reg → RegAddr
  | .chans => 0x00
  | .alloc => 0x01
  | .clkDiv => 0x02
  | .advWidth => 0x03
  | .tempoAvg => 0x04
  | .kbdMap i => BitVec.ofNat 8 (0x08 + i.val)
  | .setting c r => BitVec.ofNat 8 (setBase c + r.offset)
  | .status => 0x80
  | .seqPos => 0x81
  | .msLo => 0x82
  | .msHi => 0x83
  | .advCount => 0x84
  | .chanStatus c r => BitVec.ofNat 8 (statBase c + r.offset)

/-- The settings register at an offset from a channel's base (10_state.md R65). -/
def setRegAt (offset : Nat) : Option SetReg :=
  match offset with
  | 0x00 => some .trigCfg
  | 0x01 => some .trigLen
  | 0x02 => some .portaCfg
  | 0x03 => some .portaAsc
  | 0x04 => some .portaDesc
  | 0x05 => some .vibCfg
  | 0x06 => some .vibPeriod
  | 0x07 => some .vibSync
  | 0x08 => some .vibDepth
  | 0x09 => some .vibDelay
  | 0x0A => some .pbRange
  | n => if h : 0x10 ≤ n ∧ n ≤ 0x1A then some (.cal ⟨n - 0x10, by omega⟩) else none

/-- The status register at an offset from a channel's base (10_state.md R66). -/
def statRegAt (offset : Nat) : Option StatReg :=
  match offset with
  | 0 => some .dacCode
  | 1 => some .velDuty
  | 2 => some .notes
  | 3 => some .pb
  | 4 => some .vibOff
  | 5 => some .hist
  | 6 => some .trigCnt
  | _ => none

/-- The global register at an address below 0x20 or from 0x80 to 0x8F (10_state.md R65, R66). -/
def globalRegAt (n : Nat) : Option Reg :=
  match n with
  | 0x00 => some .chans
  | 0x01 => some .alloc
  | 0x02 => some .clkDiv
  | 0x03 => some .advWidth
  | 0x04 => some .tempoAvg
  | 0x80 => some .status
  | 0x81 => some .seqPos
  | 0x82 => some .msLo
  | 0x83 => some .msHi
  | 0x84 => some .advCount
  | n => if h : 0x08 ≤ n ∧ n ≤ 0x0F then some (.kbdMap ⟨n - 0x08, by omega⟩) else none

/-- The register at an address; `none` for a reserved address (10_state.md R64, 20_memory.md R88). -/
def regAt (a : RegAddr) : Option Reg :=
  let n := a.toNat
  if n < 0x20 then globalRegAt n
  else if n < 0x40 then (setRegAt (n - 0x20)).map (.setting .a)
  else if n < 0x60 then (setRegAt (n - 0x40)).map (.setting .b)
  else if n < 0x90 then globalRegAt n
  else if n < 0x98 then (statRegAt (n - 0x90)).map (.chanStatus .a)
  else if n < 0xA0 then (statRegAt (n - 0x98)).map (.chanStatus .b)
  else none

end Sys2Proof.Machine
end

