-- ==== Sys2Proof/Machine/Operands.lean ====
section
/-! DEFINITION. Operand and field forms: the codes of the enumerations and their legalisation (10_state.md R65),
bit fields of a register, elapsed time (00_scope.md R15), clamping (R12), the linear scaling
(42_control_change.md R202), the DAC frame (41_cv_pipeline.md R175) and the held bitmap (10_state.md R22). -/

namespace Sys2Proof.Machine

/-- The code of a trigger mode (10_state.md R40). -/
def TrigMode.code : TrigMode → BitVec 2
  | .none => 0
  | .trig => 1
  | .gate => 2

/-- The trigger mode that a written code stores; 3 stores None (10_state.md R40, R65). -/
def TrigMode.ofCode (b : BitVec 2) : TrigMode :=
  if b = 1 then .trig else if b = 2 then .gate else .none

/-- The code of a retrigger mode (10_state.md R41). -/
def RetrigMode.code : RetrigMode → BitVec 2
  | .off => 0
  | .highest => 1
  | .lowest => 2
  | .latest => 3

/-- The retrigger mode that a written code stores (10_state.md R41). -/
def RetrigMode.ofCode (b : BitVec 2) : RetrigMode :=
  if b = 1 then .highest else if b = 2 then .lowest else if b = 3 then .latest else .off

/-- The code of a vibrato mode (10_state.md R44). -/
def VibMode.code : VibMode → BitVec 2
  | .off => 0
  | .free => 1
  | .tempoSync => 2

/-- The vibrato mode that a written code stores; 3 stores Off (10_state.md R44, R65). -/
def VibMode.ofCode (b : BitVec 2) : VibMode :=
  if b = 1 then .free else if b = 2 then .tempoSync else .off

/-- The code of an LFO shape (10_state.md R45). -/
def VibShape.code : VibShape → BitVec 2
  | .bipolar => 0
  | .halfWave => 1
  | .rectified => 2

/-- The LFO shape that a written code stores; 3 stores Bipolar (10_state.md R45, R65). -/
def VibShape.ofCode (b : BitVec 2) : VibShape :=
  if b = 1 then .halfWave else if b = 2 then .rectified else .bipolar

/-- The stored clock division: 0 stores 1, a value above 24 stores 24 (10_state.md R58, R65). -/
def legalClkDiv (d : BitVec 5) : BitVec 5 := if d = 0 then 1 else if 24 < d then 24 else d

/-- The field of `len` bits of a register value whose lowest bit is bit `lo` (10_state.md R64). -/
def bits (v : Half) (lo len : Nat) : BitVec len := v.extractLsb' lo len

/-- `clamp(v, lo, hi) = max(lo, min(hi, v))` (00_scope.md R12). -/
def clamp (v lo hi : Int) : Int := max lo (min hi v)

/-- `elapsed(t0)` at the time `now`, modulo 2^32 (00_scope.md R15). -/
def elapsed (now t0 : BitVec 32) : Nat := (now - t0).toNat

/-- `lin(v, lo, hi)` (42_control_change.md R202). -/
def lin {w : Nat} (sc : Scale w) (v : Data7) : BitVec w :=
  BitVec.ofNat w ((sc.lo.toNat * (127 - v.toNat) + sc.hi.toNat * v.toNat) / 127)

/-- `DAC_CFG[c]` (00_scope.md R9). -/
def dacCfg (cfg : Config) : Chan → BitVec 4
  | .a => cfg.dacCfgA
  | .b => cfg.dacCfgB

/-- The DAC frame of a code: the configuration bits above the 12 data bits (41_cv_pipeline.md R175). -/
def dacFrame (cfg : Config) (c : Chan) (code : BitVec 12) : Half := dacCfg cfg c ++ code

/-- The two bytes of a frame in wire order, the high byte first (20_memory.md R82). -/
def frameBytes (frame : Half) : BitVec 8 × BitVec 8 := (bits frame 8 8, bits frame 0 8)

/-- Whether a note is held (10_state.md R22). -/
def isHeld (held : BitVec 128) (note : Data7) : Bool := held.getLsbD note.toNat

/-- The bitmap with a note's bit set (10_state.md R22). -/
def holdNote (held : BitVec 128) (note : Data7) : BitVec 128 := held ||| (1#128 <<< note.toNat)

/-- The bitmap with a note's bit clear (10_state.md R22). -/
def dropNote (held : BitVec 128) (note : Data7) : BitVec 128 := held &&& ~~~(1#128 <<< note.toNat)

end Sys2Proof.Machine
end

