-- ==== Sys2Proof/Machine/Ops.lean ====
section
/-! DEFINITION. The operations that every command family shares: reaching a channel, emitting an output event,
advance pulses, the gate/trigger line, the velocity and DAC outputs, and the command port. The block takes no
exception and returns from none (60_exceptions.md R310, R323), so there is no operation for either. -/

namespace Sys2Proof.Machine

/-- Channel `c` (00_scope.md R13). -/
def State.chan (s : State) : Chan → Channel
  | .a => s.cvA
  | .b => s.cvB

/-- The state with channel `c` replaced. -/
def State.setChan (s : State) (c : Chan) (ch : Channel) : State :=
  match c with
  | .a => { s with cvA := ch }
  | .b => { s with cvB := ch }

/-- The state with `f` applied to channel `c`'s runtime registers. -/
def State.updRt (s : State) (c : Chan) (f : Runtime → Runtime) : State :=
  s.setChan c { s.chan c with rt := f (s.chan c).rt }

/-- The state with `f` applied to channel `c`'s output registers. -/
def State.updOut (s : State) (c : Chan) (f : Outputs → Outputs) : State :=
  s.setChan c { s.chan c with out := f (s.chan c).out }

/-- The state with `f` applied to channel `c`'s settings. -/
def State.updSet (s : State) (c : Chan) (f : Settings → Settings) : State :=
  s.setChan c { s.chan c with set := f (s.chan c).set }

/-- `emit E`: the event is appended to the trace (00_scope.md R13). -/
def State.emit (s : State) (e : OutEvent) : State := { s with trace := s.trace ++ [e] }

/-- `adv(n)`: `n` advance pulses, each counted modulo 65536 and emitted (43_sequencer.md R234). -/
def adv : Nat → State → State
  | 0, s => s
  | n + 1, s => adv n ({ s with advCount := s.advCount + 1 }.emit .adv)

/-- `dac_write(c, code)` (41_cv_pipeline.md R175). The code is one of 0 to 4095 wherever a rule computes it. -/
def dacWrite (c : Chan) (code : Int) (s : State) : State :=
  (s.updOut c fun o => { o with dacCode := BitVec.ofInt 12 code }).emit
    (.dac c (dacFrame s.cfg c (BitVec.ofInt 12 code)))

/-- The duty of a velocity: `(vel * VEL_MAX) div 127` (40_cv_channel.md R144). -/
def velDutyOf (cfg : Config) (vel : Data7) : Half := BitVec.ofNat 16 (vel.toNat * cfg.velMax.toNat / 127)

/-- `vel_write(c, vel)` (40_cv_channel.md R144). -/
def velWrite (c : Chan) (vel : Data7) (s : State) : State :=
  (s.updOut c fun o => { o with velDuty := velDutyOf s.cfg vel }).emit (.vel c (velDutyOf s.cfg vel))

/-- `max(1, TRIG_LEN)`, the ticks of a trigger pulse (40_cv_channel.md R143). -/
def pulseTicks (len : Half) : Half := if len = 0 then 1 else len

/-- `emit_trig(c)` (40_cv_channel.md R142). -/
def emitTrig (c : Chan) (s : State) : State :=
  match (s.chan c).set.trigMode with
  | .none => s
  | .trig =>
    (s.updOut c fun o => { o with trigLine := true, trigCnt := pulseTicks (s.chan c).set.trigLen }).emit (.line c true)
  | .gate => (s.updOut c fun o => { o with trigLine := true, trigCnt := 0 }).emit (.line c true)

/-- `line_clear(c)` (40_cv_channel.md R147). -/
def lineClear (c : Chan) (s : State) : State :=
  (s.updOut c fun o => { o with trigLine := false, trigCnt := 0 }).emit (.line c false)

/-- The command at the head of the port, and the state with that command taken
(10_state.md R50, notes/assumptions/1.md). -/
def fetch (s : State) : Option (Word × State) :=
  match s.port with
  | [] => none
  | w :: rest => some (w, { s with port := rest })

/-- The state with a word presented as the next command (notes/assumptions/1.md). -/
def present (w : Word) (s : State) : State := { s with port := w :: s.port }

end Sys2Proof.Machine
end

