-- ==== Sys2Proof/Machine/Control.lean ====
section
/-! DEFINITION. The control-change actions (42_control_change.md). An action writes settings only (R218). -/

namespace Sys2Proof.Machine

/-- `CC_MAP(num)` (42_control_change.md R201). -/
def ccAction (cfg : Config) (num : Data7) : Option CcAction := cfg.ccMap.lookup num

/-- A switch controller is on from 64 (42_control_change.md R206). -/
def ccSwitch (val : Data7) : Bool := decide (64 ≤ val.toNat)

/-- A per-channel action on the channel's settings (42_control_change.md R204 to R215). -/
def chanAction (sc : CcScale) (a : ChanAction) (val : Data7) (set : Settings) : Settings :=
  match a with
  | .trigLen => { set with trigLen := lin sc.trigLen val }
  | .pbRange => { set with pbRange := lin sc.pbRange val }
  | .portaOn => { set with portaEn := ccSwitch val }
  | .portaTime => { set with portaAsc := lin sc.portaTime val, portaDesc := lin sc.portaTime val }
  | .portaAsc => { set with portaAsc := lin sc.portaAsc val }
  | .portaDesc => { set with portaDesc := lin sc.portaDesc val }
  | .vibRate => { set with vibPeriod := lin sc.vibRate val }
  | .vibDepth => { set with vibDepth := lin sc.vibDepth val }
  | .vibDelay => { set with vibDelay := lin sc.vibDelay val }
  | .vibSyncOn => { set with vibMode := if ccSwitch val then .tempoSync else .free }
  | .retrigMode => { set with retrigMode := RetrigMode.ofCode (BitVec.ofNat 2 (val.toNat / 32)) }
  | .trigMode => { set with trigMode := TrigMode.ofCode (BitVec.ofNat 2 (3 * val.toNat / 128)) }

/-- `DIV_TABLE` (42_control_change.md R217). -/
def divTable : Vector (BitVec 5) 8 := #v[1, 2, 3, 4, 6, 8, 12, 24]

/-- A global action on the global settings (42_control_change.md R216, R217). -/
def globalAction (sc : CcScale) (a : GlobalAction) (val : Data7) (g : Routing) : Routing :=
  match a with
  | .advWidth => { g with advWidth := lin sc.advWidth val }
  | .clkDiv => { g with clkDiv := divTable[val.toNat / 16]'(by have := val.isLt; omega) }

/-- `control_change(c, num, val)`: the per-channel action of the number, on channel `c`; nothing for a number
with no action or with a global one (42_control_change.md R200). -/
def controlChange (c : Chan) (num val : Data7) (s : State) : State :=
  match ccAction s.cfg num with
  | some (.chan a) => s.updSet c (chanAction s.cfg.ccScale a val)
  | some (.global _) => s
  | none => s

/-- A global action, performed once (42_control_change.md R216, R217, 44_router.md R270). -/
def globalChange (a : GlobalAction) (val : Data7) (s : State) : State :=
  { s with routing := globalAction s.cfg.ccScale a val s.routing }

end Sys2Proof.Machine
end

