-- ==== Sys2Proof/Machine/Flags.lean ====
section
/-! DEFINITION. The one-bit status flags and the words they are read in. The block has no arithmetic condition
codes (10_state.md R63). Also the predicates on `mode` and the routing settings that event commands test
(44_router.md R260, R261). -/

namespace Sys2Proof.Machine

/-- The mode as a bit (00_scope.md R19). -/
def modeBit (m : Mode) : Bool := m == .kcs

/-- `STATUS`: mode, following, the two lines, the two sliding flags, the two first-note flags, from bit 0 up
(10_state.md R66). -/
def statusWord (s : State) : Half :=
  0#8 ++ BitVec.ofBool s.cvB.rt.haveNote ++ BitVec.ofBool s.cvA.rt.haveNote
    ++ BitVec.ofBool s.cvB.rt.sliding ++ BitVec.ofBool s.cvA.rt.sliding
    ++ BitVec.ofBool s.cvB.out.trigLine ++ BitVec.ofBool s.cvA.out.trigLine
    ++ BitVec.ofBool s.seq.following ++ BitVec.ofBool (modeBit s.seq.mode)

/-- `SEQ_POS`: step in bits 3 to 0, cnt in bits 12 to 8 (10_state.md R66). -/
def seqPosWord (q : Sequencer) : Half := 0#3 ++ q.cnt ++ 0#4 ++ q.step

/-- `to_a` (44_router.md R260). -/
def toA (s : State) (ch : MidiChannel) : Bool := ch == s.routing.chanA

/-- `to_b` (44_router.md R260). -/
def toB (s : State) (ch : MidiChannel) : Bool := ch == s.routing.chanB

/-- `to_kbd` (44_router.md R260). -/
def toKbd (s : State) (ch : MidiChannel) : Bool := modeBit s.seq.mode && ch == s.routing.chanKbd

/-- `vel_b_ok` (44_router.md R261). -/
def velBOk (s : State) : Bool := !s.routing.suppressVelBKcs || s.seq.mode == .ccs

end Sys2Proof.Machine
end

