-- ==== Sys2Proof/Machine/Pipeline.lean ====
section
/-! DEFINITION. The numeric pipeline of a channel (41_cv_pipeline.md): code generator, pitch-bend mixer, vibrato
sampler, glide, DAC write, and the command `PROGRESS`. Arithmetic is exact; `/` and `%` on integers with a
positive divisor are the spec's `div` and `mod` (00_scope.md R12). -/

namespace Sys2Proof.Machine

/-- The clamped zero-based note index (41_cv_pipeline.md R160, R161). -/
def noteIndex (cfg : Config) (note : Data7) : Nat :=
  (clamp note.toNat cfg.noteMin.toNat cfg.noteMax.toNat - cfg.noteMin.toNat).toNat

/-- `cal_scale(c, idx)`, the interpolated scale factor in Q8.8 (41_cv_pipeline.md R162). -/
def calScale (cal : Vector Half 11) (idx : Nat) : Nat :=
  if h : 10 ≤ idx / 12 then cal[10].toNat
  else (cal[idx / 12].toNat * (12 - idx % 12) + cal[idx / 12 + 1].toNat * (idx % 12)) / 12

/-- The base code in Q8 (41_cv_pipeline.md R163). -/
def baseCode (cfg : Config) (set : Settings) (note : Data7) : Int :=
  noteIndex cfg note * calScale set.cal (noteIndex cfg note)

/-- The bend offset in Q8 (41_cv_pipeline.md R164). -/
def bendOffset (cfg : Config) (set : Settings) (pbv : Int) : Int :=
  (pbv * set.pbRange.toNat * cfg.nominalScale.toNat) / 8192

/-- The vibrato offset in Q8 (41_cv_pipeline.md R165). -/
def vibOffset (cfg : Config) (vibc : Int) : Int := (vibc * cfg.nominalScale.toNat) / 100

/-- `midi_to_dac_code(c, note, pbv, vibc)` (41_cv_pipeline.md R160, R166). -/
def midiToDacCode (cfg : Config) (set : Settings) (note : Data7) (pbv vibc : Int) : Int :=
  clamp ((baseCode cfg set note + bendOffset cfg set pbv + vibOffset cfg vibc) / 256) 0 4095

/-- `tri(D, P, p)`, the triangle wave (41_cv_pipeline.md R172). -/
def tri (depth period p : Int) : Int :=
  if 4 * p < period then (depth * (4 * p)) / period
  else if 4 * p < 3 * period then (depth * (2 * period - 4 * p)) / period
  else (depth * (4 * p - 4 * period)) / period

/-- `lfo_period(c)` in milliseconds (41_cv_pipeline.md R171). -/
def lfoPeriod (set : Settings) (tempoAvg : Half) : Nat :=
  match set.vibMode with
  | .off => 0
  | .free => set.vibPeriod.toNat
  | .tempoSync => tempoAvg.toNat * set.vibSync.toNat / 64

/-- The LFO phase a time `t` after the onset delay (41_cv_pipeline.md R170). -/
def lfoPhase (set : Settings) (period t : Nat) : Nat := (t + set.vibPhaseQ.toNat * period / 4) % period

/-- The shape applied to a triangle value (41_cv_pipeline.md R170). -/
def shapeVib (shape : VibShape) (v : Int) : Int :=
  match shape with
  | .bipolar => v
  | .halfWave => max v 0
  | .rectified => |v|

/-- `vib_sample(c)` in cents, for the time `el` elapsed since the last note (41_cv_pipeline.md R170). -/
def vibSample (set : Settings) (tempoAvg : Half) (el : Nat) : Int :=
  if set.vibMode = .off ∨ set.vibDepth = 0 then 0
  else if el < set.vibDelay.toNat then 0
  else if lfoPeriod set tempoAvg = 0 then 0
  else
    shapeVib set.vibShape
      (tri set.vibDepth.toNat (lfoPeriod set tempoAvg)
        (lfoPhase set (lfoPeriod set tempoAvg) (el - set.vibDelay.toNat)))

/-- `current_code(c)` at the time `ms` (41_cv_pipeline.md R176). -/
def currentCode (cfg : Config) (ms : BitVec 32) (ch : Channel) : Int :=
  let code := fun note => midiToDacCode cfg ch.set note ch.rt.pb.toInt ch.rt.vib.toInt
  if ch.rt.sliding then
    code ch.rt.startNote
      + (min (elapsed ms ch.rt.slideT0) ch.rt.slideDur.toNat * (code ch.rt.endNote - code ch.rt.startNote))
        / ch.rt.slideDur.toNat
  else code ch.rt.endNote

/-- Whether the channel's glide has run out at the time `ms` (41_cv_pipeline.md R179). -/
def glideOver (ms : BitVec 32) (r : Runtime) : Bool := decide (r.slideDur.toNat ≤ elapsed ms r.slideT0)

/-- The runtime registers after the vibrato is resampled and a finished glide is ended
(41_cv_pipeline.md R179). -/
def progressRt (ms : BitVec 32) (tempoAvg : Half) (set : Settings) (r : Runtime) : Runtime :=
  { r with
    vib := BitVec.ofInt 16 (vibSample set tempoAvg (elapsed ms r.tOn))
    sliding := r.sliding && !glideOver ms r }

/-- The DAC write of channel `c`'s present code (41_cv_pipeline.md R175, R176). -/
def writeCurrent (c : Chan) (s : State) : State := dacWrite c (currentCode s.cfg s.ms (s.chan c)) s

/-- `slide_progress(c)` (41_cv_pipeline.md R179). -/
def slideProgress (c : Chan) (s : State) : State :=
  writeCurrent c (s.updRt c (progressRt s.ms s.routing.tempoAvg (s.chan c).set))

/-- `pitch_bend(c, amount)` (41_cv_pipeline.md R182). -/
def pitchBend (c : Chan) (amount : BitVec 14) (s : State) : State :=
  writeCurrent c (s.updRt c fun r => { r with pb := amount })

/-- `PROGRESS` (41_cv_pipeline.md R180). -/
def execProgress (s : State) : Host.Outcome State Fault Refusal :=
  .next (slideProgress .b (slideProgress .a s))

end Sys2Proof.Machine
end

