-- ==== Sys2Proof/Machine/Notes.lean ====
section
/-! DEFINITION. The note operations of a channel (40_cv_channel.md): latest-notes ring, priority stack, note on,
note off, all notes off, and the command `ALL_NOTES_OFF`. -/

namespace Sys2Proof.Machine

/-- `hist_put(c, n)` on the channel's registers (40_cv_channel.md R135). -/
def histPut (note : Data7) (r : Runtime) : Runtime :=
  { r with
    histBuf := r.histBuf.set (r.histHead.toNat % 20) note (Nat.mod_lt _ (by decide))
    histHead := BitVec.ofNat 5 ((r.histHead.toNat + 1) % 20)
    histCnt := BitVec.ofNat 5 (min 20 (r.histCnt.toNat + 1)) }

/-- The cell `i` entries back from the newest, by true circular indexing (40_cv_channel.md R136). -/
def histCell (r : Runtime) (i : Nat) : Data7 :=
  r.histBuf[(((r.histHead.toNat : Int) + 19 - i) % 20).toNat]'(by omega)

/-- `latest(c)`: the newest entry of the ring that is still held (40_cv_channel.md R136). -/
def latest (r : Runtime) : Option Data7 :=
  ((List.range r.histCnt.toNat).map (histCell r)).find? (isHeld r.held)

/-- The greatest held note below `n`. -/
def highestBelow (held : BitVec 128) : Nat → Option Data7
  | 0 => none
  | n + 1 => if held.getLsbD n then some (BitVec.ofNat 7 n) else highestBelow held n

/-- The least held note below `n`. -/
def lowestBelow (held : BitVec 128) : Nat → Option Data7
  | 0 => none
  | n + 1 =>
    match lowestBelow held n with
    | some m => some m
    | none => if held.getLsbD n then some (BitVec.ofNat 7 n) else none

/-- `highest(c)` (40_cv_channel.md R137). -/
def highest (r : Runtime) : Option Data7 := highestBelow r.held 128

/-- `lowest(c)` (40_cv_channel.md R138). -/
def lowest (r : Runtime) : Option Data7 := lowestBelow r.held 128

/-- `select_next(c)`; in mode Off nothing is selected (40_cv_channel.md R139, R140). -/
def selectNext (mode : RetrigMode) (r : Runtime) : Option Data7 :=
  match mode with
  | .off => none
  | .highest => highest r
  | .lowest => lowest r
  | .latest => latest r

/-- `slide_duration(c, s, n)` (40_cv_channel.md R132). -/
def slideDuration (set : Settings) (start note : Data7) : Half :=
  if set.portaEn = false then 0
  else if start < note then set.portaAsc
  else if note < start then set.portaDesc
  else 0

/-- The registers that `note_on` writes before it decides on a glide (40_cv_channel.md R131). -/
def noteOnRt (ms : BitVec 32) (note : Data7) (addToHistory : Bool) (r : Runtime) : Runtime :=
  let r := { r with held := holdNote r.held note }
  let r := if addToHistory then histPut note r else r
  { r with
    vib := 0
    tOn := ms
    startNote := if r.haveNote then r.endNote else note
    endNote := note
    haveNote := true }

/-- The glide decision of `note_on`: write the code of the target at once, or begin a glide from `start`
(40_cv_channel.md R131). -/
def beginNote (c : Chan) (start note : Data7) (s : State) : State :=
  if slideDuration (s.chan c).set start note = 0 ∨ start = note then
    dacWrite c (midiToDacCode s.cfg (s.chan c).set note (s.chan c).rt.pb.toInt 0)
      (s.updRt c fun r => { r with sliding := false })
  else
    s.updRt c fun r =>
      { r with sliding := true, slideT0 := s.ms, slideDur := slideDuration (s.chan c).set start note }

/-- `note_on(c, note, vel, send_velocity, add_to_history)` (40_cv_channel.md R131): registers, then the DAC
write or the glide, then the velocity, then the line. -/
def noteOn (c : Chan) (note vel : Data7) (sendVelocity addToHistory : Bool) (s : State) : State :=
  let s := s.updRt c (noteOnRt s.ms note addToHistory)
  let s := beginNote c (s.chan c).rt.startNote note s
  let s := if sendVelocity then velWrite c vel s else s
  emitTrig c s

/-- The re-sound of `note_off`: the selected note, without velocity and without history
(40_cv_channel.md R140). -/
def resound (c : Chan) (vel : Data7) (s : State) : State :=
  match selectNext (s.chan c).set.retrigMode (s.chan c).rt with
  | some n => noteOn c n vel false false s
  | none => s

/-- `note_off(c, note, vel)` (40_cv_channel.md R140). -/
def noteOff (c : Chan) (note vel : Data7) (s : State) : State :=
  let s := s.updRt c fun r => { r with held := dropNote r.held note }
  let s := resound c vel s
  if (s.chan c).rt.held = 0 ∧ (s.chan c).set.trigMode = .gate then lineClear c s else s

/-- `all_notes_off(c)` (40_cv_channel.md R145). -/
def allNotesOff (c : Chan) (s : State) : State :=
  let s := s.updRt c fun r => { r with held := 0, histHead := 0, histCnt := 0, sliding := false, vib := 0 }
  if (s.chan c).set.trigMode = .gate then lineClear c s else s

/-- `ALL_NOTES_OFF cv` (40_cv_channel.md R146). -/
def execAllNotesOff (c : Chan) (s : State) : Host.Outcome State Fault Refusal := .next (allNotesOff c s)

end Sys2Proof.Machine
end

