-- ==== Sys2Proof/Machine/Sequencer.lean ====
section
/-! DEFINITION. MIDI clock divider, step sequencer and mode controller (43_sequencer.md): the commands `START`,
`STOP`, `CONTINUE`, `CLOCK`, `POLL`, and the keyboard jump. -/

namespace Sys2Proof.Machine

/-- `pps`, clock pulses per step (43_sequencer.md R231). -/
def pulsesPerStep (clkDiv : BitVec 5) : Nat := max 1 (24 / clkDiv.toNat)

/-- `steps_between(cur, tgt)` (43_sequencer.md R232). -/
def stepsBetween (cur tgt : Int) : Nat :=
  if cur = 0 ∨ cur = tgt then 7 else ((tgt - cur - 1) % 8).toNat

/-- The state with `f` applied to the sequencer registers. -/
def State.updSeq (s : State) (f : Sequencer → Sequencer) : State := { s with seq := f s.seq }

/-- The advance pulses that bring the external sequencer round to the step before step 1
(43_sequencer.md R235, R240). -/
def rewind (s : State) : State := adv (stepsBetween s.seq.step.toNat 1) s

/-- `START` (43_sequencer.md R235). -/
def execStart (s : State) : Host.Outcome State Fault Refusal :=
  if s.seq.mode = .ccs then
    .next ((rewind s).updSeq fun q => { q with following := true, cnt := 0, step := 0 })
  else .next s

/-- `STOP` (43_sequencer.md R236). -/
def execStop (s : State) : Host.Outcome State Fault Refusal :=
  if s.seq.mode = .ccs then .next (s.updSeq fun q => { q with following := false }) else .next s

/-- `CONTINUE` (43_sequencer.md R237). -/
def execCont (s : State) : Host.Outcome State Fault Refusal :=
  if s.seq.mode = .ccs then .next (s.updSeq fun q => { q with following := true }) else .next s

/-- `cnt <- (cnt mod pps) + 1` (43_sequencer.md R238). -/
def nextCnt (clkDiv cnt : BitVec 5) : BitVec 5 := BitVec.ofNat 5 (cnt.toNat % pulsesPerStep clkDiv + 1)

/-- `step <- (step mod 8) + 1` (43_sequencer.md R238). -/
def nextStep (step : BitVec 4) : BitVec 4 := BitVec.ofNat 4 (step.toNat % 8 + 1)

/-- A clock pulse that is acted on (43_sequencer.md R238). -/
def clockPulse (s : State) : State :=
  let s := s.updSeq fun q => { q with cnt := nextCnt s.routing.clkDiv q.cnt }
  if s.seq.cnt = 1 then adv 1 (s.updSeq fun q => { q with step := nextStep q.step }) else s

/-- `CLOCK` (43_sequencer.md R238). -/
def execClock (s : State) : Host.Outcome State Fault Refusal :=
  if s.seq.mode = .ccs ∧ s.seq.following = true then .next (clockPulse s) else .next s

/-- The mode transition (43_sequencer.md R239, R240). -/
def modeTransition (sw : Mode) (s : State) : State :=
  let s := s.updSeq fun q => { q with mode := sw, cnt := 0 }
  (rewind s).updSeq fun q => { q with step := 0 }

/-- `POLL sw, sync`: the transition first, then the sync input (43_sequencer.md R239, R241). -/
def execPoll (sw : Mode) (sync : Bool) (s : State) : Host.Outcome State Fault Refusal :=
  let s := if sw = s.seq.mode then s else modeTransition sw s
  .next (if sync then s.updSeq fun q => { q with step := 1 } else s)

/-- The first entry of the keyboard map that holds a note, from index `i` on (43_sequencer.md R242). -/
def kbdMatch (note : Data7) (i : Nat) : List (BitVec 8) → Option Nat
  | [] => none
  | k :: ks => if k = note.setWidth 8 then some i else kbdMatch note (i + 1) ks

/-- `kbd_jump(note)` (43_sequencer.md R242). -/
def kbdJump (note : Data7) (s : State) : State :=
  match kbdMatch note 0 s.routing.kbdMap.toList with
  | none => s
  | some i =>
    (adv (stepsBetween s.seq.step.toNat (i + 1) + 1) s).updSeq fun q => { q with step := BitVec.ofNat 4 (i + 1) }

end Sys2Proof.Machine
end

