-- ==== Sys2Proof/Machine/Router.lean ====
section
/-! DEFINITION. The MIDI event router and two-voice allocator (44_router.md): `NOTE_ON`, `NOTE_OFF`, `CC`,
`PBEND`. -/

namespace Sys2Proof.Machine

/-- `f` when the routing predicate holds, else nothing (44_router.md R260). -/
def routed (p : Bool) (f : State → State) (s : State) : State := if p then f s else s

/-- Polyphonic allocation of an accepted note: CV-A when its latest-note query finds nothing, else CV-B with
CV-A's trigger after it (44_router.md R262, R263). -/
def polyNoteOn (note vel : Data7) (s : State) : State :=
  if latest s.cvA.rt = none then noteOn .a note vel true true s
  else emitTrig .a (noteOn .b note vel (velBOk s) true s)

/-- Monophonic routing of a note, CV-A first (44_router.md R262, R264). -/
def monoNoteOn (ch : MidiChannel) (note vel : Data7) (s : State) : State :=
  routed (toB s ch) (noteOn .b note vel (velBOk s) true) (routed (toA s ch) (noteOn .a note vel true true) s)

/-- `NOTE_ON ch, note, vel` (44_router.md R262). -/
def execNoteOn (ch : MidiChannel) (note vel : Data7) (s : State) : Host.Outcome State Fault Refusal :=
  let s := routed (toKbd s ch) (kbdJump note) s
  .next (if s.routing.poly then routed (toA s ch) (polyNoteOn note vel) s else monoNoteOn ch note vel s)

/-- A polyphonic release on channel `c`, with the explicit clear when no note is left
(44_router.md R266 to R268). -/
def polyRelease (c : Chan) (note vel : Data7) (s : State) : State :=
  let s := noteOff c note vel s
  if (s.chan c).rt.held = 0 then lineClear c s else s

/-- The polyphonic release: CV-A is looked up first (44_router.md R266, R267). -/
def polyNoteOff (note vel : Data7) (s : State) : State :=
  if isHeld s.cvA.rt.held note then polyRelease .a note vel s
  else if isHeld s.cvB.rt.held note then polyRelease .b note vel s
  else s

/-- `NOTE_OFF ch, note, vel` (44_router.md R266). -/
def execNoteOff (ch : MidiChannel) (note vel : Data7) (s : State) : Host.Outcome State Fault Refusal :=
  .next
    (if s.routing.poly then routed (toA s ch) (polyNoteOff note vel) s
     else routed (toB s ch) (noteOff .b note vel) (routed (toA s ch) (noteOff .a note vel) s))

/-- Whether a global action is accepted: on any of the three configured channels (44_router.md R270). -/
def globalRouted (s : State) (ch : MidiChannel) : Bool :=
  ch == s.routing.chanA || ch == s.routing.chanB || ch == s.routing.chanKbd

/-- `CC ch, num, val` (44_router.md R270). -/
def execCc (ch : MidiChannel) (num val : Data7) (s : State) : Host.Outcome State Fault Refusal :=
  .next
    (match ccAction s.cfg num with
     | none => s
     | some (.global a) => routed (globalRouted s ch) (globalChange a val) s
     | some (.chan _) =>
       routed (toB s ch) (controlChange .b num val) (routed (toA s ch) (controlChange .a num val) s))

/-- `PBEND ch, amount` (44_router.md R272). -/
def execPbend (ch : MidiChannel) (amount : BitVec 14) (s : State) : Host.Outcome State Fault Refusal :=
  .next (routed (toB s ch) (pitchBend .b amount) (routed (toA s ch) (pitchBend .a amount) s))

end Sys2Proof.Machine
end

