-- ==== Sys2Proof/Machine/System.lean ====
section
/-! DEFINITION. The system commands (45_system.md): `NOP`, `TICK`, `REG_WRITE`, `REG_READ`, what a reserved word
does, and the register port (20_memory.md R84, R85). -/

namespace Sys2Proof.Machine

/-- `NOP` (45_system.md R290). -/
def execNop (s : State) : Host.Outcome State Fault Refusal := .next s

/-- A reserved word executes as `NOP` (45_system.md R295, 30_encoding.md R107). -/
def execReserved (s : State) : Host.Outcome State Fault Refusal := .next s

/-- The trigger-release timer of channel `c` during a `TICK` (45_system.md R291). -/
def tickTimer (c : Chan) (s : State) : State :=
  if (s.chan c).out.trigCnt = 0 then s
  else if (s.chan c).out.trigCnt = 1 then
    (s.updOut c fun o => { o with trigCnt := 0, trigLine := false }).emit (.line c false)
  else s.updOut c fun o => { o with trigCnt := o.trigCnt - 1 }

/-- `TICK` (45_system.md R291). -/
def execTick (s : State) : Host.Outcome State Fault Refusal :=
  .next (tickTimer .b (tickTimer .a { s with ms := s.ms + 1 }))

/-- The value of a channel's settings register, reserved bits 0 (10_state.md R65, 20_memory.md R84). -/
def settingValue (r : SetReg) (set : Settings) : Half :=
  match r with
  | .trigCfg => 0#12 ++ set.retrigMode.code ++ set.trigMode.code
  | .trigLen => set.trigLen
  | .portaCfg => 0#15 ++ BitVec.ofBool set.portaEn
  | .portaAsc => set.portaAsc
  | .portaDesc => set.portaDesc
  | .vibCfg => 0#10 ++ set.vibPhaseQ ++ set.vibShape.code ++ set.vibMode.code
  | .vibPeriod => set.vibPeriod
  | .vibSync => 0#8 ++ set.vibSync
  | .vibDepth => 0#4 ++ set.vibDepth
  | .vibDelay => set.vibDelay
  | .pbRange => 0#9 ++ set.pbRange
  | .cal k => set.cal[k]

/-- A write of a channel's settings register: each field from its bits, after legalisation; reserved bits are
dropped (10_state.md R65, 20_memory.md R85). -/
def settingStore (r : SetReg) (v : Half) (set : Settings) : Settings :=
  match r with
  | .trigCfg => { set with trigMode := TrigMode.ofCode (bits v 0 2), retrigMode := RetrigMode.ofCode (bits v 2 2) }
  | .trigLen => { set with trigLen := v }
  | .portaCfg => { set with portaEn := bits v 0 1 == 1 }
  | .portaAsc => { set with portaAsc := v }
  | .portaDesc => { set with portaDesc := v }
  | .vibCfg =>
    { set with
      vibMode := VibMode.ofCode (bits v 0 2)
      vibShape := VibShape.ofCode (bits v 2 2)
      vibPhaseQ := bits v 4 2 }
  | .vibPeriod => { set with vibPeriod := v }
  | .vibSync => { set with vibSync := bits v 0 8 }
  | .vibDepth => { set with vibDepth := bits v 0 12 }
  | .vibDelay => { set with vibDelay := v }
  | .pbRange => { set with pbRange := bits v 0 7 }
  | .cal k => { set with cal := set.cal.set k v }

/-- The value of a channel's status register (10_state.md R66). -/
def chanStatusValue (r : StatReg) (ch : Channel) : Half :=
  match r with
  | .dacCode => 0#4 ++ ch.out.dacCode
  | .velDuty => ch.out.velDuty
  | .notes => 0#1 ++ ch.rt.startNote ++ 0#1 ++ ch.rt.endNote
  | .pb => ch.rt.pb.signExtend 16
  | .vibOff => ch.rt.vib
  | .hist => 0#3 ++ ch.rt.histCnt ++ 0#3 ++ ch.rt.histHead
  | .trigCnt => ch.out.trigCnt

/-- The value that a read of a register returns (10_state.md R65, R66, 20_memory.md R84). -/
def regValue (s : State) : Reg → Half
  | .chans => 0#4 ++ s.routing.chanKbd ++ s.routing.chanB ++ s.routing.chanA
  | .alloc => 0#14 ++ BitVec.ofBool s.routing.suppressVelBKcs ++ BitVec.ofBool s.routing.poly
  | .clkDiv => 0#11 ++ s.routing.clkDiv
  | .advWidth => 0#8 ++ s.routing.advWidth
  | .tempoAvg => s.routing.tempoAvg
  | .kbdMap i => 0#8 ++ s.routing.kbdMap[i]
  | .setting c r => settingValue r (s.chan c).set
  | .status => statusWord s
  | .seqPos => seqPosWord s.seq
  | .msLo => s.ms.extractLsb' 0 16
  | .msHi => s.msHiLatch
  | .advCount => s.advCount
  | .chanStatus c r => chanStatusValue r (s.chan c)

/-- `REG[a]`: what a read at an address returns; a reserved address reads 0 (20_memory.md R84). -/
def regRead (s : State) (a : RegAddr) : Half := ((regAt a).map (regValue s)).getD 0

/-- A write of a global settings register (10_state.md R65, 20_memory.md R85). -/
def State.updRouting (s : State) (f : Routing → Routing) : State := { s with routing := f s.routing }

/-- A write of a register; a status register ignores it (10_state.md R65, R66, 20_memory.md R85). -/
def regStore (r : Reg) (v : Half) (s : State) : State :=
  match r with
  | .chans => s.updRouting fun g => { g with chanA := bits v 0 4, chanB := bits v 4 4, chanKbd := bits v 8 4 }
  | .alloc => s.updRouting fun g => { g with poly := bits v 0 1 == 1, suppressVelBKcs := bits v 1 1 == 1 }
  | .clkDiv => s.updRouting fun g => { g with clkDiv := legalClkDiv (bits v 0 5) }
  | .advWidth => s.updRouting fun g => { g with advWidth := bits v 0 8 }
  | .tempoAvg => s.updRouting fun g => { g with tempoAvg := v }
  | .kbdMap i => s.updRouting fun g => { g with kbdMap := g.kbdMap.set i (bits v 0 8) }
  | .setting c r => s.updSet c (settingStore r v)
  | .status => s
  | .seqPos => s
  | .msLo => s
  | .msHi => s
  | .advCount => s
  | .chanStatus _ _ => s

/-- `REG[a] <- v`; a reserved address ignores it (20_memory.md R85). -/
def regWrite (a : RegAddr) (v : Half) (s : State) : State :=
  match regAt a with
  | some r => regStore r v s
  | none => s

/-- The one side effect of a read: `MS_LO` latches the high half of `ms` (20_memory.md R84, 10_state.md R61). -/
def readEffect (a : RegAddr) (s : State) : State :=
  if regAt a = some .msLo then { s with msHiLatch := s.ms.extractLsb' 16 16 } else s

/-- `REG_WRITE addr, data` (45_system.md R293). -/
def execRegWrite (addr : RegAddr) (data : Half) (s : State) : Host.Outcome State Fault Refusal :=
  .next (regWrite addr data s)

/-- `REG_READ addr` (45_system.md R294). -/
def execRegRead (addr : RegAddr) (s : State) : Host.Outcome State Fault Refusal :=
  .next ((readEffect addr s).emit (.rdata (regRead s addr)))

end Sys2Proof.Machine
end

