-- ==== Sys2Proof/Machine/Dispatch.lean ====
section
/-! DEFINITION. The meaning of every command, one arm each (30_encoding.md R106). -/

namespace Sys2Proof.Machine

def exec (i : Instr) (s : State) : Host.Outcome State Fault Refusal :=
  match i with
  | .nop => Sys2Proof.Machine.execNop s
  | .tick => Sys2Proof.Machine.execTick s
  | .progress => Sys2Proof.Machine.execProgress s
  | .poll sw sync => Sys2Proof.Machine.execPoll sw sync s
  | .allNotesOff c => Sys2Proof.Machine.execAllNotesOff c s
  | .regWrite addr data => Sys2Proof.Machine.execRegWrite addr data s
  | .regRead addr => Sys2Proof.Machine.execRegRead addr s
  | .noteOff ch note vel => Sys2Proof.Machine.execNoteOff ch note vel s
  | .noteOn ch note vel => Sys2Proof.Machine.execNoteOn ch note vel s
  | .cc ch num val => Sys2Proof.Machine.execCc ch num val s
  | .pbend ch amount => Sys2Proof.Machine.execPbend ch amount s
  | .clock => Sys2Proof.Machine.execClock s
  | .start => Sys2Proof.Machine.execStart s
  | .cont => Sys2Proof.Machine.execCont s
  | .stop => Sys2Proof.Machine.execStop s

end Sys2Proof.Machine
end

