-- ==== Sys2Proof/Machine/Step.lean ====
section
/-! DEFINITION. One step: the command at the head of the port is taken and executed whole (20_memory.md R90). With
no command presented the block is idle (45_system.md R295). A reserved word executes as `NOP` (R295). -/

namespace Sys2Proof.Machine

/-- One step of the block. -/
def step (s : State) : Host.Outcome State Fault Refusal :=
  match fetch s with
  | none => .next s
  | some (w, s') =>
    match decode w with
    | .ok i => exec i s'
    | .error _ => execReserved s'

/-- The state with the word of an opcode-table row presented as the next command
(notes/assumptions/1.md). -/
def State.withFetchWord (s : State) (nbits w : Nat) : State := present (tableWord nbits w) s

end Sys2Proof.Machine
end

