-- ==== Sys2Proof/Machine/Environment.lean ====
section
/-! DEFINITION. What surrounds the block, as functions that make lists of commands: the pseudo-commands
(30_encoding.md R112), the standard schedule (45_system.md R292) and the arbitration of simultaneous stimuli
(60_exceptions.md R322). No step uses them: 'The rule constrains the environment only; the block executes
whatever order it is given' (R322). -/

namespace Sys2Proof.Machine

/-- `WAIT n` (30_encoding.md R112). -/
def waitMs (n : Nat) : List Instr := (List.replicate n [Instr.tick, Instr.progress]).flatten

/-- `UPDATE_MIDI_CHANNELS a, b, k`, MIDI channels counted from 1 (30_encoding.md R112). -/
def updateMidiChannels (a b k : Nat) : List Instr :=
  [.regWrite 0x00 (BitVec.ofNat 16 ((k - 1) * 256 + (b - 1) * 16 + (a - 1)))]

/-- Writes of consecutive registers from an address up. -/
def writeFrom : Nat → List Half → List Instr
  | _, [] => []
  | a, v :: vs => .regWrite (BitVec.ofNat 8 a) v :: writeFrom (a + 1) vs

/-- `UPDATE_KEYBOARD_PREFS n1, ..., n8` (30_encoding.md R112). -/
def updateKeyboardPrefs (notes : List Half) : List Instr := writeFrom 0x08 notes

/-- `SET_TEMPO avg` (30_encoding.md R112). -/
def setTempo (avg : Half) : List Instr := [.regWrite 0x04 avg]

/-- `READ_MS` (30_encoding.md R112). -/
def readMs : List Instr := [.regRead 0x82, .regRead 0x83]

/-- `LOAD_CAL cv, v0, ..., v10` (30_encoding.md R112). -/
def loadCal (c : Chan) (points : List Half) : List Instr := writeFrom (setBase c + 0x10) points

/-- The commands of millisecond `n` of the standard schedule, counted from 1, with the switch levels of that
moment (45_system.md R292, notes/assumptions/12.md). -/
def scheduleMs (cfg : Config) (n : Nat) (sw : Mode) (sync : Bool) : List Instr :=
  [.tick, .progress] ++ if n % cfg.swPollTicks = 0 then [.poll sw sync] else []

/-- The rank of a command among those ready at the same instant, the lowest first
(60_exceptions.md R322). -/
def priority : Instr → Nat
  | .tick => 0
  | .noteOff _ _ _ => 1
  | .noteOn _ _ _ => 1
  | .cc _ _ _ => 1
  | .pbend _ _ => 1
  | .clock => 1
  | .start => 1
  | .cont => 1
  | .stop => 1
  | .progress => 2
  | .poll _ _ => 3
  | .regWrite _ _ => 4
  | .regRead _ => 4
  | .allNotesOff _ => 4
  | .nop => 4

/-- A command put before the first one of no higher rank. -/
def insertByPriority (i : Instr) : List Instr → List Instr
  | [] => [i]
  | j :: js => if priority i ≤ priority j then i :: j :: js else j :: insertByPriority i js

/-- The order in which commands ready at the same instant are presented; those of one rank keep their order of
arrival (60_exceptions.md R322, notes/assumptions/12.md). -/
def arbitrate (ready : List Instr) : List Instr := ready.foldr insertByPriority []

/-- The state with commands presented after those already waiting (60_exceptions.md R331). -/
def presentAll (is : List Instr) (s : State) : State := { s with port := s.port ++ is.map encode }

end Sys2Proof.Machine
end

