-- ==== Sys2Proof/Machine/Assembler.lean ====
section
/-! DEFINITION. The assembler notation (30_encoding.md R110, R112): one command a line, operands separated by
commas, a comment from `;` on, numbers decimal or hexadecimal, registers by address or by name. What the spec
leaves open of the text is in notes/assumptions/11.md. -/

namespace Sys2Proof.Machine

/-- How an operand may be written (30_encoding.md R110). -/
inductive OperandKind
  | number | switch | cv | addr
  deriving DecidableEq, Repr

/-- The kinds of a command's operands (30_encoding.md R110). -/
def operandKinds : Mnemonic → List OperandKind
  | .poll => [.switch, .number]
  | .allNotesOff => [.cv]
  | .regWrite => [.addr, .number]
  | .regRead => [.addr]
  | m => m.ranges.map fun _ => .number

/-- A mnemonic as text (30_encoding.md R110). -/
def mnemonicText : Mnemonic → String
  | .nop => "NOP"
  | .tick => "TICK"
  | .progress => "PROGRESS"
  | .poll => "POLL"
  | .allNotesOff => "ALL_NOTES_OFF"
  | .regWrite => "REG_WRITE"
  | .regRead => "REG_READ"
  | .noteOff => "NOTE_OFF"
  | .noteOn => "NOTE_ON"
  | .cc => "CC"
  | .pbend => "PBEND"
  | .clock => "CLOCK"
  | .start => "START"
  | .cont => "CONTINUE"
  | .stop => "STOP"

/-- The name of a channel settings register (10_state.md R65). -/
def setRegText : SetReg → String
  | .trigCfg => "TRIG_CFG"
  | .trigLen => "TRIG_LEN"
  | .portaCfg => "PORTA_CFG"
  | .portaAsc => "PORTA_ASC"
  | .portaDesc => "PORTA_DESC"
  | .vibCfg => "VIB_CFG"
  | .vibPeriod => "VIB_PERIOD"
  | .vibSync => "VIB_SYNC"
  | .vibDepth => "VIB_DEPTH"
  | .vibDelay => "VIB_DELAY"
  | .pbRange => "PB_RANGE"
  | .cal _ => "CAL"

/-- The name of a channel status register (10_state.md R66). -/
def statRegText : StatReg → String
  | .dacCode => "DAC_CODE"
  | .velDuty => "VEL_DUTY"
  | .notes => "NOTES"
  | .pb => "PB"
  | .vibOff => "VIB_OFF"
  | .hist => "HIST"
  | .trigCnt => "TRIG_CNT"

/-- The suffix of a channel (30_encoding.md R110). -/
def chanSuffix : Chan → String
  | .a => ".A"
  | .b => ".B"

/-- A table index in brackets (30_encoding.md R110). -/
def indexText (n : Nat) : String :=
  "[" ++ (#["0", "1", "2", "3", "4", "5", "6", "7", "8", "9", "10"].getD n "") ++ "]"

/-- The name of a register, with the channel as suffix and the index in brackets (30_encoding.md R110). -/
def regText : Reg → String
  | .chans => "CHANS"
  | .alloc => "ALLOC"
  | .clkDiv => "CLK_DIV"
  | .advWidth => "ADV_WIDTH"
  | .tempoAvg => "TEMPO_AVG"
  | .kbdMap i => "KBD_MAP" ++ indexText i.val
  | .setting c (.cal k) => "CAL" ++ chanSuffix c ++ indexText k.val
  | .setting c r => setRegText r ++ chanSuffix c
  | .status => "STATUS"
  | .seqPos => "SEQ_POS"
  | .msLo => "MS_LO"
  | .msHi => "MS_HI"
  | .advCount => "ADV_COUNT"
  | .chanStatus c r => statRegText r ++ chanSuffix c

/-- Every register, found by its address. -/
def allRegs : List Reg := (List.range 256).filterMap fun a => regAt (BitVec.ofNat 8 a)

/-- The value of a digit in a base up to 16. -/
def digitValue (base : Nat) (ch : Char) : Option Nat :=
  let n := ch.toNat
  let v := if 48 ≤ n ∧ n ≤ 57 then n - 48 else if 65 ≤ n ∧ n ≤ 70 then n - 55 else if 97 ≤ n ∧ n ≤ 102 then n - 87 else 16
  if v < base then some v else none

/-- The value of a run of digits, continuing from `acc`. -/
def digitsFrom (base : Nat) (acc : Nat) : List Char → Option Nat
  | [] => some acc
  | ch :: cs =>
    match digitValue base ch with
    | some d => digitsFrom base (acc * base + d) cs
    | none => none

/-- A number without sign: at least one digit, `0x` before a hexadecimal one (30_encoding.md R110). -/
def parseNat : List Char → Option Nat
  | '0' :: 'x' :: ch :: cs => digitsFrom 16 0 (ch :: cs)
  | [] => none
  | cs => digitsFrom 10 0 cs

/-- A number (30_encoding.md R110). -/
def parseInt : List Char → Option Int
  | '-' :: cs => (parseNat cs).map fun n => -(n : Int)
  | cs => (parseNat cs).map fun n => (n : Int)

/-- An operand of a kind (30_encoding.md R110). -/
def parseOperand (k : OperandKind) (cs : List Char) : Option Int :=
  match k with
  | .number => parseInt cs
  | .switch => if cs = "CCS".toList then some 0 else if cs = "KCS".toList then some 1 else parseInt cs
  | .cv => if cs = "A".toList then some 0 else if cs = "B".toList then some 1 else parseInt cs
  | .addr =>
    match allRegs.find? fun r => (regText r).toList == cs with
    | some r => some (r.addr.toNat : Int)
    | none => parseInt cs

/-- Operands of the given kinds, as many as there are kinds. -/
def parseOperands : List OperandKind → List (List Char) → Option (List Int)
  | [], [] => some []
  | k :: ks, cs :: rest =>
    match parseOperand k cs, parseOperands ks rest with
    | some v, some vs => some (v :: vs)
    | _, _ => none
  | _, _ => none

/-- The pieces of a text between separators. -/
def splitAt (sep : Char) : List Char → List (List Char)
  | [] => [[]]
  | ch :: cs =>
    if ch = sep then [] :: splitAt sep cs
    else
      match splitAt sep cs with
      | p :: ps => (ch :: p) :: ps
      | [] => [[ch]]

/-- Blank space inside a line. -/
def isBlank (ch : Char) : Bool := ch == ' ' || ch == '\t' || ch == '\r'

/-- A text without blanks at its ends. -/
def trimBlanks (cs : List Char) : List Char := ((cs.dropWhile isBlank).reverse.dropWhile isBlank).reverse

/-- The legal operands of a command make the command: MIDI channels are held minus 1 (30_encoding.md R105,
R110). -/
def commandOf : Mnemonic → List Int → Option Instr
  | .nop, [] => some .nop
  | .tick, [] => some .tick
  | .progress, [] => some .progress
  | .poll, [sw, sync] => some (.poll (modeOfBit (BitVec.ofInt 1 sw)) (sync == 1))
  | .allNotesOff, [c] => some (.allNotesOff (chanOfBit (BitVec.ofInt 1 c)))
  | .regWrite, [a, v] => some (.regWrite (BitVec.ofInt 8 a) (BitVec.ofInt 16 v))
  | .regRead, [a] => some (.regRead (BitVec.ofInt 8 a))
  | .noteOff, [ch, n, v] => some (.noteOff (BitVec.ofInt 4 (ch - 1)) (BitVec.ofInt 7 n) (BitVec.ofInt 7 v))
  | .noteOn, [ch, n, v] => some (.noteOn (BitVec.ofInt 4 (ch - 1)) (BitVec.ofInt 7 n) (BitVec.ofInt 7 v))
  | .cc, [ch, n, v] => some (.cc (BitVec.ofInt 4 (ch - 1)) (BitVec.ofInt 7 n) (BitVec.ofInt 7 v))
  | .pbend, [ch, amount] => some (.pbend (BitVec.ofInt 4 (ch - 1)) (BitVec.ofInt 14 amount))
  | .clock, [] => some .clock
  | .start, [] => some .start
  | .cont, [] => some .cont
  | .stop, [] => some .stop
  | _, _ => none

/-- The command of a written line whose operands are legal (30_encoding.md R110). -/
def assemble (l : SourceLine) : Option Instr :=
  match l.problem with
  | none => commandOf l.mnemonic l.operands
  | some _ => none

/-- Every number in its range. -/
def allWithin (r : Range) (vs : List Int) : Bool := vs.all r.holds

/-- A pseudo-command by name, with its operands (30_encoding.md R112). R112 gives no operand range but that of
`UPDATE_MIDI_CHANNELS`. DESIGN CHOICE (notes/assumptions/11.md): `UPDATE_KEYBOARD_PREFS` takes 0 to 255, the width of
`KBD_MAP` (10_state.md R60), `SET_TEMPO` and the points of `LOAD_CAL` take 0 to 65535, the data of a `REG_WRITE`
(R110), and `WAIT` takes any number from 0. -/
def pseudoCommand (name : List Char) (operands : List (List Char)) : Option (List Instr) :=
  if name = "READ_MS".toList then (if operands = [] then some readMs else none)
  else if name = "LOAD_CAL".toList then
    match operands with
    | cv :: points =>
      match parseOperand .cv cv, points.mapM parseInt with
      | some c, some vs =>
        if allWithin ⟨0, 1⟩ [c] && allWithin ⟨0, 65535⟩ vs && vs.length == 11 then
          some (loadCal (chanOfBit (BitVec.ofInt 1 c)) (vs.map (BitVec.ofInt 16)))
        else none
      | _, _ => none
    | [] => none
  else
    match operands.mapM parseInt with
    | none => none
    | some vs =>
      if name = "WAIT".toList then
        match vs with
        | [n] => if 0 ≤ n then some (waitMs n.toNat) else none
        | _ => none
      else if name = "SET_TEMPO".toList then
        match vs with
        | [v] => if allWithin ⟨0, 65535⟩ vs then some (setTempo (BitVec.ofInt 16 v)) else none
        | _ => none
      else if name = "UPDATE_MIDI_CHANNELS".toList then
        match vs with
        | [a, b, k] => if allWithin ⟨1, 16⟩ vs then some (updateMidiChannels a.toNat b.toNat k.toNat) else none
        | _ => none
      else if name = "UPDATE_KEYBOARD_PREFS".toList then
        if allWithin ⟨0, 255⟩ vs && vs.length == 8 then some (updateKeyboardPrefs (vs.map (BitVec.ofInt 16))) else none
      else none

/-- The operand texts of a line: none for blank text, else the pieces between commas. -/
def operandTexts (cs : List Char) : List (List Char) :=
  if cs = [] then [] else (splitAt ',' cs).map trimBlanks

/-- The commands of one line; none for an empty line (30_encoding.md R110, R112). -/
def assembleLine (line : List Char) : Option (List Instr) :=
  let text := trimBlanks (line.takeWhile fun ch => ch != ';')
  let name := text.takeWhile fun ch => !isBlank ch
  let operands := operandTexts (trimBlanks (text.dropWhile fun ch => !isBlank ch))
  if text = [] then some []
  else
    match Mnemonic.all.find? fun m => (mnemonicText m).toList == name with
    | some m =>
      match parseOperands (operandKinds m) operands with
      | some vs => (assemble ⟨m, vs⟩).map fun i => [i]
      | none => none
    | none => pseudoCommand name operands

/-- The commands of a program text, or `none` when a line is not of the notation (30_encoding.md R110). -/
def assembleText (text : String) : Option (List Instr) :=
  ((splitAt '\n' text.toList).mapM assembleLine).map List.flatten

end Sys2Proof.Machine
end

