-- ==== Sys2Proof/Safety.lean ====
section
/-! DEFINITION. What a good state is, in the terms that claims use: the ranges that the spec gives the registers, the
agreement of the output registers with the trace, the external sequencer as a reader of the trace, and what a
settings register reads after a write. -/

namespace Sys2Proof.Machine

/-- The ranges of a channel's runtime registers (10_state.md R24, R29, R30, 40_cv_channel.md R132). -/
structure Runtime.Ok (r : Runtime) : Prop where
  /-- The ring head is a cell index. -/
  head : r.histHead.toNat < 20
  /-- 'never exceeds capacity'. -/
  count : r.histCnt.toNat ≤ 20
  /-- A glide has a positive duration. -/
  glide : r.sliding = true → r.slideDur ≠ 0
  /-- A glide starts from an earlier note. -/
  glideNote : r.sliding = true → r.haveNote = true
  /-- The vibrato offset is within the largest depth. -/
  vibLow : -4095 ≤ r.vib.toInt
  vibHigh : r.vib.toInt ≤ 4095

/-- The ranges of a channel's output registers (10_state.md R35, R37). -/
structure Outputs.Ok (cfg : Config) (o : Outputs) : Prop where
  /-- A pending release timer means a high line. -/
  timer : o.trigCnt ≠ 0 → o.trigLine = true
  /-- The duty is at most `VEL_MAX`. -/
  duty : o.velDuty ≤ cfg.velMax

/-- The ranges of the sequencer registers (10_state.md R51, R52, 43_sequencer.md R243). -/
structure Sequencer.Ok (q : Sequencer) : Prop where
  step : q.step.toNat ≤ 8
  cnt : q.cnt.toNat ≤ 24

/-- The ranges that a run keeps, whatever commands it is given. -/
structure State.Inv (s : State) : Prop where
  rt : ∀ c, (s.chan c).rt.Ok
  out : ∀ c, (s.chan c).out.Ok s.cfg
  seq : s.seq.Ok
  /-- `CLK_DIV` is kept in 1..24 (10_state.md R58). -/
  clkDivLow : 1 ≤ s.routing.clkDiv.toNat
  clkDivHigh : s.routing.clkDiv.toNat ≤ 24

/-- The frame of the last DAC event of a channel. -/
def lastDac (c : Chan) : List OutEvent → Option Half
  | [] => none
  | .dac c' f :: es => if c' = c then some ((lastDac c es).getD f) else lastDac c es
  | _ :: es => lastDac c es

/-- The level of the last line event of a channel. -/
def lastLine (c : Chan) : List OutEvent → Option Bool
  | [] => none
  | .line c' l :: es => if c' = c then some ((lastLine c es).getD l) else lastLine c es
  | _ :: es => lastLine c es

/-- The duty of the last velocity event of a channel. -/
def lastVel (c : Chan) : List OutEvent → Option Half
  | [] => none
  | .vel c' d :: es => if c' = c then some ((lastVel c es).getD d) else lastVel c es
  | _ :: es => lastVel c es

/-- The number of advance pulses in a trace. -/
def advPulses (es : List OutEvent) : Nat := es.count .adv

/-- The output registers agree with the trace: the DAC code, the line and the duty of each channel are those of
its last events, or the reset values when there is none, and `adv_count` is the number of pulses modulo 65536
(10_state.md R34, R36, R37, R62). -/
structure State.Mirrors (s : State) : Prop where
  dac : ∀ c f, lastDac c s.trace = some f → f = dacFrame s.cfg c (s.chan c).out.dacCode
  noDac : ∀ c, lastDac c s.trace = none → (s.chan c).out.dacCode = 0
  line : ∀ c, (s.chan c).out.trigLine = (lastLine c s.trace).getD false
  vel : ∀ c, (s.chan c).out.velDuty = (lastVel c s.trace).getD 0
  adv : s.advCount = BitVec.ofNat 16 (advPulses s.trace)

/-- One step of the external sequencer: 1 to 2, ..., 8 to 1 (43_sequencer.md R230). -/
def extNext (pos : Nat) : Nat := pos % 8 + 1

/-- Where the external sequencer stands after `n` pulses from `pos` (43_sequencer.md R230). -/
def extAfter (pos : Nat) : Nat → Nat
  | 0 => pos
  | n + 1 => extAfter (extNext pos) n

/-- The tracked step is right: it names the external position, or it is 0 while the external sequencer stands on
step 8, about to become step 1 (43_sequencer.md R235, R240, 93_implementation_defined.md U6). -/
def InStep (step : BitVec 4) (pos : Nat) : Prop := if step = 0 then pos = 8 else pos = step.toNat

/-- The sequences after which the spec says the tracked step may be wrong (93_implementation_defined.md U6,
43_sequencer.md R241): a repositioning or a keyboard jump from step 0, and the sync input. -/
def Desyncs (s : State) : Instr → Prop
  | .start => s.seq.mode = .ccs ∧ s.seq.step = 0
  | .poll sw sync => (sw ≠ s.seq.mode ∧ s.seq.step = 0) ∨ sync = true
  | .noteOn ch note _ =>
    toKbd s ch = true ∧ s.seq.step = 0 ∧ (kbdMatch note 0 s.routing.kbdMap.toList).isSome = true
  | _ => False

/-- A command executed `n` times in a row. -/
def execTimes (i : Instr) : Nat → State → Host.Outcome State Fault Refusal
  | 0, s => .next s
  | n + 1, s =>
    match exec i s with
    | .next t => execTimes i n t
    | .fault r => .fault r
    | .refused r => .refused r

/-- The two low bits of a configuration register with the reserved code 3 read as 0 (10_state.md R65). -/
def legalCode (v : Half) (lo : Nat) : Half := if bits v lo 2 = 3 then 0 else (v &&& (3 <<< lo))

/-- What a register reads after `v` is written to it in state `s`: the written bits of a settings register, after
legalisation, with the reserved bits 0; a status register keeps its value (10_state.md R65, R66,
20_memory.md R84, R85). -/
def readBack (s : State) (v : Half) : Reg → Half
  | .chans => v &&& 0x0FFF
  | .alloc => v &&& 0x0003
  | .clkDiv => if v &&& 0x1F = 0 then 1 else if 24 < v &&& 0x1F then 24 else v &&& 0x1F
  | .advWidth => v &&& 0x00FF
  | .tempoAvg => v
  | .kbdMap _ => v &&& 0x00FF
  | .setting _ .trigCfg => legalCode v 0 ||| (v &&& 0x000C)
  | .setting _ .portaCfg => v &&& 0x0001
  | .setting _ .vibCfg => legalCode v 0 ||| legalCode v 2 ||| (v &&& 0x0030)
  | .setting _ .vibSync => v &&& 0x00FF
  | .setting _ .vibDepth => v &&& 0x0FFF
  | .setting _ .pbRange => v &&& 0x007F
  | .setting _ _ => v
  | .status => regValue s .status
  | .seqPos => regValue s .seqPos
  | .msLo => regValue s .msLo
  | .msHi => regValue s .msHi
  | .advCount => regValue s .advCount
  | .chanStatus c r => regValue s (.chanStatus c r)

end Sys2Proof.Machine
end

