-- ==== Sys2Proof/Certificates/Slice0/Obligations.lean ====
section
/-! DEFINITION. The statements for the provers. Each is `def Obligations.<Name> : Prop`; OBLIGATIONS.json lists them. -/

open Sys2Proof Sys2Proof.Machine

/-! ### Encoding -/

/-- The opcode map (30_encoding.md R106): a word under a row's mask that equals the row's match is that row's
command, with the row's operands. Distinct rows give distinct commands, so no two rows overlap. -/
def Obligations.OpcodeMapDecodesEachRow : Prop :=
  ∀ w : Word,
    (w &&& 0xFFFFFFFF = 0x00000000 → decode w = .ok .nop) ∧
    (w &&& 0xFFFFFFFF = 0x01000000 → decode w = .ok .tick) ∧
    (w &&& 0xFFFFFFFF = 0x02000000 → decode w = .ok .progress) ∧
    (w &&& 0xFFFFFFFC = 0x03000000 →
      decode w = .ok (.poll (if w.getLsbD 0 then .kcs else .ccs) (w.getLsbD 1))) ∧
    (w &&& 0xFFFFFFFE = 0x04000000 → decode w = .ok (.allNotesOff (if w.getLsbD 0 then .b else .a))) ∧
    (w &&& 0xFF000000 = 0x10000000 → decode w = .ok (.regWrite (w.extractLsb' 16 8) (w.extractLsb' 0 16))) ∧
    (w &&& 0xFF00FFFF = 0x20000000 → decode w = .ok (.regRead (w.extractLsb' 16 8))) ∧
    (w &&& 0xF08080FF = 0x80000000 →
      decode w = .ok (.noteOff (w.extractLsb' 24 4) (w.extractLsb' 16 7) (w.extractLsb' 8 7))) ∧
    (w &&& 0xF08080FF = 0x90000000 →
      decode w = .ok (.noteOn (w.extractLsb' 24 4) (w.extractLsb' 16 7) (w.extractLsb' 8 7))) ∧
    (w &&& 0xF08080FF = 0xB0000000 →
      decode w = .ok (.cc (w.extractLsb' 24 4) (w.extractLsb' 16 7) (w.extractLsb' 8 7))) ∧
    (w &&& 0xF0FFC000 = 0xE0000000 → decode w = .ok (.pbend (w.extractLsb' 24 4) (w.extractLsb' 0 14))) ∧
    (w &&& 0xFFFFFFFF = 0xF8000000 → decode w = .ok .clock) ∧
    (w &&& 0xFFFFFFFF = 0xFA000000 → decode w = .ok .start) ∧
    (w &&& 0xFFFFFFFF = 0xFB000000 → decode w = .ok .cont) ∧
    (w &&& 0xFFFFFFFF = 0xFC000000 → decode w = .ok .stop)

/-- A word that matches no row is reserved and executes as `NOP` (30_encoding.md R107), and the words that R107
names match no row: an unused major opcode, an unused sub-opcode, and a row's word with a must-be-0 bit set. -/
def Obligations.ReservedWordExecutesAsNop : Prop :=
  (∀ (w : Word) (s : State) (rest : List Word),
    s.port = w :: rest → (∀ m ∈ Mnemonic.all, m.row.hits w = false) →
      step s = .next { s with port := rest } ∧
      step s = exec .nop { s with port := rest }) ∧
  (∀ w : Word,
    ((w.extractLsb' 28 4).toNat ∈ [0x3, 0x4, 0x5, 0x6, 0x7, 0xA, 0xC, 0xD] ∨
      (w.extractLsb' 28 4 = 0x0#4 ∧ 5 ≤ (w.extractLsb' 24 4).toNat) ∨
      (w.extractLsb' 28 4 = 0xF#4 ∧ (w.extractLsb' 24 4).toNat ∉ [0x8, 0xA, 0xB, 0xC])) →
    ∀ m ∈ Mnemonic.all, m.row.hits w = false) ∧
  (∀ w : Word,
    let opcode : Word := if (w.extractLsb' 28 4).toNat ∈ [0x0, 0xF] then 0xFF000000 else 0xF0000000
    ∀ m ∈ Mnemonic.all, w &&& opcode = m.row.value &&& opcode → m.row.hits w = false →
      ∀ m' ∈ Mnemonic.all, m'.row.hits w = false)

/-- Every command decodes from its word, with every operand at every value. -/
def Obligations.DecodeOfEncodeGivesTheCommand : Prop := ∀ i : Instr, decode (encode i) = .ok i

/-- Every accepted word is the word of the command it decodes to. -/
def Obligations.EncodeOfDecodeGivesTheWord : Prop := ∀ (w : Word) (i : Instr), decode w = .ok i → encode i = w

/-- The worked encodings of 30_encoding.md R111, in both directions. -/
def Obligations.WorkedEncodingsDecode : Prop :=
  ∀ p ∈ ([(0x903C6400, .noteOn 0 60 100), (0x81300000, .noteOff 1 48 0), (0xB0417F00, .cc 0 65 127),
      (0xE0002000, .pbend 0 (BitVec.ofInt 14 (-8192))), (0xEF001FFF, .pbend 15 8191),
      (0x03000001, .poll .kcs false), (0x03000002, .poll .ccs true), (0x04000001, .allNotesOff .b),
      (0x10020006, .regWrite 0x02 6), (0x20820000, .regRead 0x82), (0xFA000000, .start)] : List (Word × Instr)),
    decode p.1 = .ok p.2 ∧ encode p.2 = p.1

/-! ### The step -/

/-- A step takes the next presented word and executes the command it decodes to; with no word presented nothing
changes. How words are presented is the model's choice (notes/assumptions/1.md). -/
def Obligations.StepRunsTheDecodedCommand : Prop :=
  (∀ (s : State) (w : Word) (rest : List Word) (i : Instr),
    s.port = w :: rest → decode w = .ok i → step s = exec i { s with port := rest }) ∧
  (∀ s : State, s.port = [] → step s = .next s)

/-- The word of a command, presented next, is executed by the very next step, which leaves the words behind it
waiting. That a presented word goes before the words already waiting is the model's choice, and so is that the very
next step runs it: `withFetchWord` stands for the environment's presentation (notes/assumptions/1.md). -/
def Obligations.PresentedCommandIsExecuted : Prop :=
  ∀ (i : Instr) (s : State), step (s.withFetchWord 32 (encode i).toNat) = exec i s

/-- Every command completes, in every state, for every operand (60_exceptions.md R310). -/
def Obligations.EveryCommandCompletes : Prop :=
  (∀ (i : Instr) (s : State), ∃ t, exec i s = .next t) ∧ ∀ s : State, ∃ t, step s = .next t

/-! ### Reset and invariants -/

/-- The reset table (10_state.md R67), for every level of the mode switch, with the default parameters. -/
def Obligations.ResetTableHolds : Prop :=
  ∀ mode : Mode,
    let s := State.launch defaultConfig mode
    s.ms = 0 ∧ s.msHiLatch = 0 ∧ s.advCount = 0 ∧ s.trace = [] ∧
    s.seq = { step := 0, cnt := 0, following := false, mode := mode } ∧
    s.routing.chanA = 0 ∧ s.routing.chanB = 1 ∧ s.routing.chanKbd = 2 ∧ s.routing.poly = false ∧
    s.routing.suppressVelBKcs = true ∧ s.routing.clkDiv = 4 ∧ s.routing.advWidth = 10 ∧ s.routing.tempoAvg = 0 ∧
    (∀ i : Fin 8, s.routing.kbdMap[i] = BitVec.ofNat 8 (60 + i.val)) ∧
    ∀ c : Chan,
      (s.chan c).rt.held = 0 ∧ (∀ i : Fin 20, (s.chan c).rt.histBuf[i] = 0) ∧
      (s.chan c).rt.histHead = 0 ∧ (s.chan c).rt.histCnt = 0 ∧
      (s.chan c).rt.haveNote = false ∧ (s.chan c).rt.sliding = false ∧
      (s.chan c).rt.startNote = 0 ∧ (s.chan c).rt.endNote = 0 ∧ (s.chan c).rt.slideT0 = 0 ∧
      (s.chan c).rt.slideDur = 0 ∧ (s.chan c).rt.tOn = 0 ∧ (s.chan c).rt.vib = 0 ∧ (s.chan c).rt.pb = 0 ∧
      (s.chan c).out = { trigLine := false, trigCnt := 0, dacCode := 0, velDuty := 0 } ∧
      (s.chan c).set.trigMode = .trig ∧ (s.chan c).set.retrigMode = .off ∧ (s.chan c).set.trigLen = 2 ∧
      (s.chan c).set.portaEn = false ∧ (s.chan c).set.portaAsc = 0 ∧ (s.chan c).set.portaDesc = 0 ∧
      (s.chan c).set.vibMode = .free ∧ (s.chan c).set.vibShape = .bipolar ∧ (s.chan c).set.vibPhaseQ = 0 ∧
      (s.chan c).set.vibPeriod = 200 ∧ (s.chan c).set.vibSync = 24 ∧ (s.chan c).set.vibDepth = 0 ∧
      (s.chan c).set.vibDelay = 0 ∧ (s.chan c).set.pbRange = 2 ∧
      ∀ k : Fin 11, (s.chan c).set.cal[k] = 0x2220

/-- After reset, for every configuration and level of the mode switch, the registers are in their ranges, and the
output registers agree with the empty trace. -/
def Obligations.LaunchMeetsTheInvariants : Prop :=
  ∀ (cfg : Config) (mode : Mode), (State.launch cfg mode).Inv ∧ (State.launch cfg mode).Mirrors

/-- Every step keeps every register in its range: `step` in 0..8, `cnt` in 0..24, `CLK_DIV` in 1..24, the ring head
and count in the ring, a glide with a positive duration, the vibrato within 4095 cents, the duty within
`VEL_MAX`, a pending release timer only on a high line. -/
def Obligations.StepKeepsRegistersInRange : Prop :=
  ∀ s t : State, s.Inv → Sys2Proof.Machine.step s = .next t → t.Inv

/-- Every step keeps the output registers in agreement with the output trace: each DAC code, line level and duty is
that of its channel's last event, and `adv_count` counts the pulses modulo 65536. -/
def Obligations.StepKeepsOutputsMirroringTheTrace : Prop :=
  ∀ s t : State, s.Mirrors → Sys2Proof.Machine.step s = .next t → t.Mirrors

/-- The tracked step stays right: when it names the external sequencer's position (0 standing for step 8), it still
does after any command but the sequences that 93_implementation_defined.md U6 and the sync input except. -/
def Obligations.TrackedStepFollowsTheExternalSequencer : Prop :=
  ∀ (i : Instr) (s t : State) (pos : Nat),
    s.Inv → InStep s.seq.step pos → ¬ Desyncs s i → exec i s = .next t →
      ∃ n, advPulses t.trace = advPulses s.trace + n ∧ InStep t.seq.step (extAfter pos n)

/-! ### System commands -/

/-- `NOP` changes nothing (45_system.md R290). -/
def Obligations.NopChangesNothing : Prop := ∀ s : State, exec .nop s = .next s

/-- `TICK`, whole (45_system.md R291): `ms` goes up by one modulo 2^32; each pending release timer goes down by one,
and the timer that reaches 0 lowers its line and emits the level, CV-A first; nothing else changes. -/
def Obligations.TickCountsTimeAndEndsPulses : Prop :=
  ∀ s : State,
    let out := fun o : Outputs =>
      if o.trigCnt = 0 then o
      else { o with trigCnt := o.trigCnt - 1, trigLine := if o.trigCnt = 1 then false else o.trigLine }
    let events := fun c => if (s.chan c).out.trigCnt = 1 then [OutEvent.line c false] else []
    exec .tick s =
      .next { s with
        ms := s.ms + 1
        cvA := { s.cvA with out := out s.cvA.out }
        cvB := { s.cvB with out := out s.cvB.out }
        trace := s.trace ++ events .a ++ events .b }

/-- A line raised with `n` ticks on its release timer stays high for `n - 1` ticks and is low after the `n`-th
(40_cv_channel.md R143, 70_reset_and_hazards.md R371). -/
def Obligations.TriggerPulseLastsItsTicks : Prop :=
  ∀ (s : State) (c : Chan),
    (s.chan c).out.trigLine = true → (s.chan c).out.trigCnt ≠ 0 →
      (∀ k, k < (s.chan c).out.trigCnt.toNat →
        ∃ t, execTimes .tick k s = .next t ∧ (t.chan c).out.trigLine = true) ∧
      ∃ t, execTimes .tick (s.chan c).out.trigCnt.toNat s = .next t ∧
        (t.chan c).out.trigLine = false ∧ (t.chan c).out.trigCnt = 0

/-- `REG_READ` emits the value at the address and changes nothing else, but for the latch of `MS_LO`
(45_system.md R294). -/
def Obligations.RegReadEmitsTheValue : Prop :=
  ∀ (a : RegAddr) (s : State),
    exec (.regRead a) s =
      .next { s with
        trace := s.trace ++ [.rdata (regRead s a)]
        msHiLatch := if a = 0x82 then s.ms.extractLsb' 16 16 else s.msHiLatch }

/-- The status registers read the live state at their addresses and bit positions (10_state.md R66). -/
def Obligations.StatusRegistersReadTheLiveState : Prop :=
  ∀ s : State,
    (regRead s 0x80).toNat =
      (if s.seq.mode = .kcs then 1 else 0) + 2 * s.seq.following.toNat
        + 4 * s.cvA.out.trigLine.toNat + 8 * s.cvB.out.trigLine.toNat
        + 16 * s.cvA.rt.sliding.toNat + 32 * s.cvB.rt.sliding.toNat
        + 64 * s.cvA.rt.haveNote.toNat + 128 * s.cvB.rt.haveNote.toNat ∧
    (regRead s 0x81).toNat = s.seq.step.toNat + 256 * s.seq.cnt.toNat ∧
    (regRead s 0x82).toNat = s.ms.toNat % 65536 ∧
    regRead s 0x83 = s.msHiLatch ∧
    regRead s 0x84 = s.advCount ∧
    ∀ c : Chan,
      let at_ := fun k => BitVec.ofNat 8 ((if c = .a then 0x90 else 0x98) + k)
      (regRead s (at_ 0)).toNat = (s.chan c).out.dacCode.toNat ∧
      regRead s (at_ 1) = (s.chan c).out.velDuty ∧
      (regRead s (at_ 2)).toNat = (s.chan c).rt.endNote.toNat + 256 * (s.chan c).rt.startNote.toNat ∧
      (regRead s (at_ 3)).toInt = (s.chan c).rt.pb.toInt ∧
      (regRead s (at_ 4)).toInt = (s.chan c).rt.vib.toInt ∧
      (regRead s (at_ 5)).toNat = (s.chan c).rt.histHead.toNat + 256 * (s.chan c).rt.histCnt.toNat ∧
      regRead s (at_ 6) = (s.chan c).out.trigCnt

/-- The settings registers read their fields at their addresses and bit positions (10_state.md R65). -/
def Obligations.SettingsRegistersReadTheirFields : Prop :=
  ∀ s : State,
    (regRead s 0x00).toNat =
      s.routing.chanA.toNat + 16 * s.routing.chanB.toNat + 256 * s.routing.chanKbd.toNat ∧
    (regRead s 0x01).toNat = s.routing.poly.toNat + 2 * s.routing.suppressVelBKcs.toNat ∧
    (regRead s 0x02).toNat = s.routing.clkDiv.toNat ∧
    (regRead s 0x03).toNat = s.routing.advWidth.toNat ∧
    regRead s 0x04 = s.routing.tempoAvg ∧
    (∀ i : Fin 8, (regRead s (BitVec.ofNat 8 (0x08 + i.val))).toNat = s.routing.kbdMap[i].toNat) ∧
    ∀ c : Chan,
      let at_ := fun k => BitVec.ofNat 8 ((if c = .a then 0x20 else 0x40) + k)
      let set := (s.chan c).set
      (regRead s (at_ 0x00)).toNat = set.trigMode.code.toNat + 4 * set.retrigMode.code.toNat ∧
      regRead s (at_ 0x01) = set.trigLen ∧
      (regRead s (at_ 0x02)).toNat = set.portaEn.toNat ∧
      regRead s (at_ 0x03) = set.portaAsc ∧
      regRead s (at_ 0x04) = set.portaDesc ∧
      (regRead s (at_ 0x05)).toNat =
        set.vibMode.code.toNat + 4 * set.vibShape.code.toNat + 16 * set.vibPhaseQ.toNat ∧
      regRead s (at_ 0x06) = set.vibPeriod ∧
      (regRead s (at_ 0x07)).toNat = set.vibSync.toNat ∧
      (regRead s (at_ 0x08)).toNat = set.vibDepth.toNat ∧
      regRead s (at_ 0x09) = set.vibDelay ∧
      (regRead s (at_ 0x0A)).toNat = set.pbRange.toNat ∧
      ∀ k : Fin 11, regRead s (at_ (0x10 + k.val)) = set.cal[k]

/-- `REG_WRITE` (45_system.md R293, 20_memory.md R85): the written register reads back the written bits after
legalisation, every other register reads as before, a reserved or status address changes nothing, and no runtime
state, output, trace or anything outside the settings changes. -/
def Obligations.RegWriteStoresOneRegister : Prop :=
  ∀ (a : RegAddr) (v : Half) (s : State), ∃ t, exec (.regWrite a v) s = .next t ∧
    (∀ r, regAt a = some r → regRead t a = readBack s v r) ∧
    (∀ b, b ≠ a → regRead t b = regRead s b) ∧
    (regAt a = none ∨ 0x80 ≤ a.toNat → t = s) ∧
    t.cfg = s.cfg ∧ t.ms = s.ms ∧ t.seq = s.seq ∧ t.msHiLatch = s.msHiLatch ∧ t.advCount = s.advCount ∧
    t.trace = s.trace ∧ t.port = s.port ∧
    ∀ c, (t.chan c).rt = (s.chan c).rt ∧ (t.chan c).out = (s.chan c).out

/-- The register map is one-to-one, and an address that it does not list reads 0 and ignores a write
(10_state.md R64, 20_memory.md R88). -/
def Obligations.AddressMapIsOneToOne : Prop :=
  (∀ r : Reg, regAt r.addr = some r) ∧
  (∀ (a : RegAddr) (r : Reg), regAt a = some r → r.addr = a) ∧
  ∀ (a : RegAddr) (v : Half) (s : State), regAt a = none → regRead s a = 0 ∧ exec (.regWrite a v) s = .next s

/-- `MS_LO` then `MS_HI` give one 32-bit value, whatever number of ticks runs between (20_memory.md R86). -/
def Obligations.MillisecondReadIsConsistent : Prop :=
  ∀ (s : State) (n : Nat), ∃ t u v lo hi,
    exec (.regRead 0x82) s = .next t ∧ execTimes .tick n t = .next u ∧ exec (.regRead 0x83) u = .next v ∧
    t.trace = s.trace ++ [.rdata lo] ∧ v.trace = u.trace ++ [.rdata hi] ∧ hi ++ lo = s.ms

/-! ### Numeric pipeline -/

/-- `midi_to_dac_code` is the clamped sum of the three Q8 terms (41_cv_pipeline.md R160), and its value is a code
0..4095 (R166). -/
def Obligations.DacCodeIsTheClampedSum : Prop :=
  ∀ (cfg : Config) (set : Settings) (note : Data7) (pbv vibc : Int),
    let n := max (cfg.noteMin.toNat : Int) (min (cfg.noteMax.toNat : Int) note.toNat)
    let idx := (n - cfg.noteMin.toNat).toNat
    midiToDacCode cfg set note pbv vibc =
      max 0 (min 4095
        (((idx * calScale set.cal idx : Int) + (pbv * set.pbRange.toNat * cfg.nominalScale.toNat) / 8192
          + (vibc * cfg.nominalScale.toNat) / 100) / 256)) ∧
    0 ≤ midiToDacCode cfg set note pbv vibc ∧ midiToDacCode cfg set note pbv vibc ≤ 4095

/-- `cal_scale` (41_cv_pipeline.md R162): exact at an anchor, the last anchor's value from there on, the floored
line between two anchors, and never outside the two. -/
def Obligations.CalibrationInterpolatesBetweenAnchors : Prop :=
  ∀ cal : Vector Half 11,
    (∀ k : Fin 11, calScale cal (12 * k.val) = cal[k].toNat) ∧
    (∀ idx, 120 ≤ idx → calScale cal idx = cal[10].toNat) ∧
    ∀ (k : Fin 10) (r : Nat), r < 12 →
      calScale cal (12 * k.val + r) = (cal[k.val].toNat * (12 - r) + cal[k.val + 1].toNat * r) / 12 ∧
      min cal[k.val].toNat cal[k.val + 1].toNat ≤ calScale cal (12 * k.val + r) ∧
      calScale cal (12 * k.val + r) ≤ max cal[k.val].toNat cal[k.val + 1].toNat

/-- The code of a note outside the range is that of the nearest boundary, the code is monotone in the bend and in the
vibrato, and with a constant table it is linear in the note (41_cv_pipeline.md R161, R167). -/
def Obligations.DacCodeClampsNotesAndIsMonotone : Prop :=
  ∀ (cfg : Config) (set : Settings) (note : Data7) (pbv vibc : Int),
    (∀ note' : Data7, note'.toNat = max cfg.noteMin.toNat (min cfg.noteMax.toNat note.toNat) →
      midiToDacCode cfg set note pbv vibc = midiToDacCode cfg set note' pbv vibc) ∧
    (∀ pbv', pbv ≤ pbv' → midiToDacCode cfg set note pbv vibc ≤ midiToDacCode cfg set note pbv' vibc) ∧
    (∀ vibc', vibc ≤ vibc' → midiToDacCode cfg set note pbv vibc ≤ midiToDacCode cfg set note pbv vibc') ∧
    ∀ v : Half, set.cal = Vector.replicate 11 v →
      midiToDacCode cfg set note 0 0 = min 4095 (((noteIndex cfg note * v.toNat : Nat) : Int) / 256)

/-- The triangle wave (41_cv_pipeline.md R172): its three pieces, its range `[-D, D]`, and its values 0, `+D`, 0 and
`-D` at the quarters of its period. -/
def Obligations.TriangleStaysWithinDepth : Prop :=
  ∀ depth period p : Int, 0 ≤ depth → 1 ≤ period → 0 ≤ p → p < period →
    tri depth period p =
      (if 4 * p < period then depth * (4 * p) / period
       else if 4 * p < 3 * period then depth * (2 * period - 4 * p) / period
       else depth * (4 * p - 4 * period) / period) ∧
    -depth ≤ tri depth period p ∧ tri depth period p ≤ depth ∧
    (p = 0 → tri depth period p = 0) ∧ (4 * p = period → tri depth period p = depth) ∧
    (4 * p = 2 * period → tri depth period p = 0) ∧ (4 * p = 3 * period → tri depth period p = -depth)

/-- The vibrato sample (41_cv_pipeline.md R170, R171, R173): it is 0 when the vibrato is off, has depth 0, has period 0,
or before the onset delay; else it is the shaped triangle at the phase counted from the end of the delay. It is
within the depth, and not negative in the HalfWave and Rectified shapes. -/
def Obligations.VibratoIsTheShapedTriangle : Prop :=
  ∀ (set : Settings) (tempoAvg : Half) (el : Nat),
    let period :=
      if set.vibMode = .off then 0
      else if set.vibMode = .free then set.vibPeriod.toNat
      else tempoAvg.toNat * set.vibSync.toNat / 64
    let wave :=
      tri set.vibDepth.toNat period
        (((el - set.vibDelay.toNat + set.vibPhaseQ.toNat * period / 4) % period : Nat) : Int)
    (set.vibMode = .off ∨ set.vibDepth = 0 ∨ el < set.vibDelay.toNat ∨ period = 0 →
      vibSample set tempoAvg el = 0) ∧
    (set.vibMode ≠ .off → set.vibDepth ≠ 0 → set.vibDelay.toNat ≤ el → period ≠ 0 →
      vibSample set tempoAvg el =
        if set.vibShape = .bipolar then wave else if set.vibShape = .halfWave then max wave 0 else |wave|) ∧
    -(set.vibDepth.toNat : Int) ≤ vibSample set tempoAvg el ∧ vibSample set tempoAvg el ≤ set.vibDepth.toNat ∧
    (set.vibShape ≠ .bipolar → 0 ≤ vibSample set tempoAvg el)

/-- The code of a channel at a time (41_cv_pipeline.md R176): the end note's when it does not slide; in a glide the
point of the line from the start code to the end code at the elapsed time, which is the start code at 0, the end
code from the glide's end on, and between the two in between. -/
def Obligations.GlideRunsFromStartCodeToEndCode : Prop :=
  ∀ (cfg : Config) (ms : BitVec 32) (ch : Channel),
    let sc := midiToDacCode cfg ch.set ch.rt.startNote ch.rt.pb.toInt ch.rt.vib.toInt
    let ec := midiToDacCode cfg ch.set ch.rt.endNote ch.rt.pb.toInt ch.rt.vib.toInt
    let el := (ms - ch.rt.slideT0).toNat
    (ch.rt.sliding = false → currentCode cfg ms ch = ec) ∧
    (ch.rt.sliding = true → ch.rt.slideDur ≠ 0 →
      currentCode cfg ms ch = sc + ((min el ch.rt.slideDur.toNat : Nat) * (ec - sc)) / ch.rt.slideDur.toNat ∧
      (el = 0 → currentCode cfg ms ch = sc) ∧
      (ch.rt.slideDur.toNat ≤ el → currentCode cfg ms ch = ec) ∧
      min sc ec ≤ currentCode cfg ms ch ∧ currentCode cfg ms ch ≤ max sc ec)

/-- `PROGRESS`, whole (41_cv_pipeline.md R179, R180): for each channel the vibrato is resampled, a glide whose time
has run out ends, and the present code is stored and sent, CV-A first; nothing else changes. -/
def Obligations.ProgressRewritesBothChannels : Prop :=
  ∀ s : State,
    let rt := fun ch : Channel =>
      { ch.rt with
        vib := BitVec.ofInt 16 (vibSample ch.set s.routing.tempoAvg (s.ms - ch.rt.tOn).toNat)
        sliding := ch.rt.sliding && !decide (ch.rt.slideDur.toNat ≤ (s.ms - ch.rt.slideT0).toNat) }
    let code := fun ch : Channel => BitVec.ofInt 12 (currentCode s.cfg s.ms { ch with rt := rt ch })
    exec .progress s =
      .next { s with
        cvA := { s.cvA with rt := rt s.cvA, out := { s.cvA.out with dacCode := code s.cvA } }
        cvB := { s.cvB with rt := rt s.cvB, out := { s.cvB.out with dacCode := code s.cvB } }
        trace := s.trace ++ [.dac .a (s.cfg.dacCfgA ++ code s.cvA), .dac .b (s.cfg.dacCfgB ++ code s.cvB)] }

/-- A code written while the channel does not slide is the end note's, with bend and vibrato, and is stored without
loss (41_cv_pipeline.md R177): after `PROGRESS`, and after a `PBEND` routed to the channel. -/
def Obligations.OutputReflectsEndNoteWhenNotSliding : Prop :=
  let reflects := fun (t : State) (ch : Channel) =>
    ch.rt.sliding = false →
      (ch.out.dacCode.toNat : Int) = midiToDacCode t.cfg ch.set ch.rt.endNote ch.rt.pb.toInt ch.rt.vib.toInt
  (∀ s : State, ∃ t, exec .progress s = .next t ∧ ∀ c, reflects t (t.chan c)) ∧
  ∀ (s : State) (ch : MidiChannel) (amount : BitVec 14), ∃ t, exec (.pbend ch amount) s = .next t ∧
    (ch = s.routing.chanA → reflects t t.cvA) ∧ (ch = s.routing.chanB → reflects t t.cvB)

/-- `PBEND`, whole (44_router.md R272, 41_cv_pipeline.md R182): each channel whose MIDI channel matches stores the
amount, then stores and sends its present code, CV-A first; nothing else changes. -/
def Obligations.PbendStoresAndSendsAtOnce : Prop :=
  ∀ (ch : MidiChannel) (amount : BitVec 14) (s : State),
    let rt := fun v : Channel => { v.rt with pb := amount }
    let code := fun v : Channel => BitVec.ofInt 12 (currentCode s.cfg s.ms { v with rt := rt v })
    exec (.pbend ch amount) s =
      .next { s with
        cvA := if ch = s.routing.chanA then
            { s.cvA with rt := rt s.cvA, out := { s.cvA.out with dacCode := code s.cvA } } else s.cvA
        cvB := if ch = s.routing.chanB then
            { s.cvB with rt := rt s.cvB, out := { s.cvB.out with dacCode := code s.cvB } } else s.cvB
        trace := s.trace
          ++ (if ch = s.routing.chanA then [.dac .a (s.cfg.dacCfgA ++ code s.cvA)] else [])
          ++ (if ch = s.routing.chanB then [.dac .b (s.cfg.dacCfgB ++ code s.cvB)] else []) }

/-! ### Note operations -/

/-- The latest-notes ring (40_cv_channel.md R135): a put makes the note the newest entry, moves every other entry one
back, and drops the twentieth; the head goes round 20 cells, the count stops at 20, and nothing else changes. -/
def Obligations.HistoryPutMakesTheNoteNewest : Prop :=
  ∀ (r : Runtime) (note : Data7),
    histCell (histPut note r) 0 = note ∧
    (∀ i, i < 19 → histCell (histPut note r) (i + 1) = histCell r i) ∧
    (histPut note r).histHead.toNat = (r.histHead.toNat + 1) % 20 ∧
    (histPut note r).histCnt.toNat = min 20 (r.histCnt.toNat + 1) ∧
    histPut note r =
      { r with
        histBuf := (histPut note r).histBuf
        histHead := (histPut note r).histHead
        histCnt := (histPut note r).histCnt }

/-- `latest` (40_cv_channel.md R136) is the first held note counting back from the newest valid entry of the ring,
and `none` when no valid entry is held; the entry `i` back is in the cell `(head + 19 - i) mod 20`. -/
def Obligations.LatestIsTheNewestHeldEntry : Prop :=
  ∀ (r : Runtime) (n : Data7),
    (latest r = some n ↔
      ∃ i, i < r.histCnt.toNat ∧ histCell r i = n ∧ isHeld r.held n = true ∧
        ∀ j, j < i → isHeld r.held (histCell r j) = false) ∧
    (latest r = none ↔ ∀ i, i < r.histCnt.toNat → isHeld r.held (histCell r i) = false) ∧
    ∀ i, i < 20 → r.histBuf[(r.histHead.toNat + 19 - i) % 20]? = some (histCell r i)

/-- `highest` and `lowest` (40_cv_channel.md R137, R138) are the greatest and the least held note, and `none` exactly
when none is held. -/
def Obligations.HighestAndLowestAreTheExtremeHeldNotes : Prop :=
  ∀ r : Runtime,
    (∀ n, highest r = some n ↔ isHeld r.held n = true ∧ ∀ m, isHeld r.held m = true → m ≤ n) ∧
    (highest r = none ↔ r.held = 0) ∧
    (∀ n, lowest r = some n ↔ isHeld r.held n = true ∧ ∀ m, isHeld r.held m = true → n ≤ m) ∧
    (lowest r = none ↔ r.held = 0)

/-- `note_on`, whole (40_cv_channel.md R131, R132, R142, R144): the registers of channel `c`, the events in the order
DAC, velocity, line, and nothing else changes. -/
def Obligations.NoteOnWritesItsChannelOnly : Prop :=
  ∀ (c : Chan) (note vel : Data7) (sendVelocity addToHistory : Bool) (s : State),
    let ch := s.chan c
    let start := if ch.rt.haveNote then ch.rt.endNote else note
    let dur :=
      if ch.set.portaEn = false then 0
      else if start.toNat < note.toNat then ch.set.portaAsc
      else if note.toNat < start.toNat then ch.set.portaDesc
      else 0
    let now := decide (dur = 0 ∨ start = note)
    let code := BitVec.ofInt 12 (midiToDacCode s.cfg ch.set note ch.rt.pb.toInt 0)
    let duty := BitVec.ofNat 16 (vel.toNat * s.cfg.velMax.toNat / 127)
    let hist := if addToHistory then histPut note ch.rt else ch.rt
    noteOn c note vel sendVelocity addToHistory s =
      { s.setChan c
          { set := ch.set
            rt := { ch.rt with
              held := holdNote ch.rt.held note
              histBuf := hist.histBuf
              histHead := hist.histHead
              histCnt := hist.histCnt
              vib := 0
              tOn := s.ms
              startNote := start
              endNote := note
              haveNote := true
              sliding := !now
              slideT0 := if now then ch.rt.slideT0 else s.ms
              slideDur := if now then ch.rt.slideDur else dur }
            out :=
              { dacCode := if now then code else ch.out.dacCode
                velDuty := if sendVelocity then duty else ch.out.velDuty
                trigLine := if ch.set.trigMode = .none then ch.out.trigLine else true
                trigCnt :=
                  if ch.set.trigMode = .none then ch.out.trigCnt
                  else if ch.set.trigMode = .gate then 0
                  else if ch.set.trigLen = 0 then 1 else ch.set.trigLen } } with
        trace := s.trace
          ++ (if now then [.dac c ((if c = .a then s.cfg.dacCfgA else s.cfg.dacCfgB) ++ code)] else [])
          ++ (if sendVelocity then [.vel c duty] else [])
          ++ (if ch.set.trigMode = .none then [] else [.line c true]) }

/-- The held bitmap: a held note's bit is set, a dropped note's is clear, every other bit is as before
(10_state.md R22, 40_cv_channel.md R131, R140). -/
def Obligations.HeldBitmapChangesOneNote : Prop :=
  ∀ (held : BitVec 128) (note n : Data7),
    isHeld (holdNote held note) n = (n == note || isHeld held n) ∧
    isHeld (dropNote held note) n = (n != note && isHeld held n)

/-- `note_off`, whole (40_cv_channel.md R140): the bit is cleared; in a retrigger mode other than Off the selected
note, if any, is played again without velocity and history; then the line is cleared when no note is left in Gate
mode. -/
def Obligations.NoteOffReleasesAndResounds : Prop :=
  ∀ (c : Chan) (note vel : Data7) (s : State),
    let released := s.setChan c
      { s.chan c with rt := { (s.chan c).rt with held := dropNote (s.chan c).rt.held note } }
    let next :=
      match (s.chan c).set.retrigMode with
      | .off => none
      | .highest => highest (released.chan c).rt
      | .lowest => lowest (released.chan c).rt
      | .latest => latest (released.chan c).rt
    let played :=
      match next with
      | some n => noteOn c n vel false false released
      | none => released
    noteOff c note vel s =
      if (played.chan c).rt.held = 0 ∧ (s.chan c).set.trigMode = .gate then
        { played.setChan c
            { played.chan c with out := { (played.chan c).out with trigLine := false, trigCnt := 0 } } with
          trace := played.trace ++ [.line c false] }
      else played

/-- `ALL_NOTES_OFF`, whole (40_cv_channel.md R145, R146). -/
def Obligations.AllNotesOffClearsTheChannel : Prop :=
  ∀ (c : Chan) (s : State),
    let ch := s.chan c
    let gate := decide (ch.set.trigMode = .gate)
    exec (.allNotesOff c) s =
      .next
        { s.setChan c
            { set := ch.set
              rt := { ch.rt with held := 0, histHead := 0, histCnt := 0, sliding := false, vib := 0 }
              out := if gate then { ch.out with trigLine := false, trigCnt := 0 } else ch.out } with
          trace := s.trace ++ (if gate then [.line c false] else []) }

/-- Playing a note that the channel already plays starts no glide and writes the note's code at once, so the second
of two equal notes leaves the code of the first when that was written at once (40_cv_channel.md R134). -/
def Obligations.RepeatedNoteWritesTheSameCode : Prop :=
  ∀ (c : Chan) (note vel : Data7) (s : State),
    let t := noteOn c note vel true true s
    let u := noteOn c note vel true true t
    (u.chan c).rt.sliding = false ∧
    ((u.chan c).out.dacCode.toNat : Int) =
      midiToDacCode s.cfg (s.chan c).set note (s.chan c).rt.pb.toInt 0 ∧
    ((t.chan c).rt.sliding = false → (u.chan c).out.dacCode = (t.chan c).out.dacCode) ∧
    histCell (u.chan c).rt 0 = note ∧ histCell (u.chan c).rt 1 = note

/-! ### Router -/

/-- `NOTE_ON`, whole (44_router.md R262, R260, R261): the keyboard jump in KCS mode on the keyboard channel, then the
polyphonic allocation or the monophonic routing. -/
def Obligations.NoteOnRoutesTheNote : Prop :=
  ∀ (ch : MidiChannel) (note vel : Data7) (s : State),
    let jumped := if s.seq.mode = .kcs ∧ ch = s.routing.chanKbd then kbdJump note s else s
    let velB := decide (s.routing.suppressVelBKcs = false ∨ s.seq.mode = .ccs)
    let poly :=
      if ch = s.routing.chanA then
        if latest s.cvA.rt = none then noteOn .a note vel true true jumped
        else emitTrig .a (noteOn .b note vel velB true jumped)
      else jumped
    let monoA := if ch = s.routing.chanA then noteOn .a note vel true true jumped else jumped
    let mono := if ch = s.routing.chanB then noteOn .b note vel velB true monoA else monoA
    exec (.noteOn ch note vel) s = .next (if s.routing.poly then poly else mono)

/-- Polyphonic allocation (44_router.md R263): a note on CV-A's MIDI channel goes to CV-A when its latest-note query
finds nothing, and then CV-B is untouched; otherwise it goes to CV-B, and then of CV-A only the trigger is
asserted; on any other MIDI channel no voice changes. -/
def Obligations.PolyphonicNoteGoesToOneVoice : Prop :=
  ∀ (ch : MidiChannel) (note vel : Data7) (s : State), s.routing.poly = true →
    ∃ t, exec (.noteOn ch note vel) s = .next t ∧
      (ch = s.routing.chanA → latest s.cvA.rt = none →
        t.cvB = s.cvB ∧ isHeld t.cvA.rt.held note = true ∧ t.cvA.rt.endNote = note) ∧
      (ch = s.routing.chanA → latest s.cvA.rt ≠ none →
        t.cvA.rt = s.cvA.rt ∧ t.cvA.out.dacCode = s.cvA.out.dacCode ∧ t.cvA.out.velDuty = s.cvA.out.velDuty ∧
        (s.cvA.set.trigMode ≠ .none → t.cvA.out.trigLine = true) ∧
        isHeld t.cvB.rt.held note = true ∧ t.cvB.rt.endNote = note) ∧
      (ch ≠ s.routing.chanA → t.cvA = s.cvA ∧ t.cvB = s.cvB)

/-- `NOTE_OFF`, whole (44_router.md R266). -/
def Obligations.NoteOffRoutesTheRelease : Prop :=
  ∀ (ch : MidiChannel) (note vel : Data7) (s : State),
    let release := fun c : Chan =>
      let t := noteOff c note vel s
      if (t.chan c).rt.held = 0 then
        { t.setChan c { t.chan c with out := { (t.chan c).out with trigLine := false, trigCnt := 0 } } with
          trace := t.trace ++ [.line c false] }
      else t
    let poly :=
      if ch = s.routing.chanA then
        if isHeld s.cvA.rt.held note then release .a
        else if isHeld s.cvB.rt.held note then release .b
        else s
      else s
    let monoA := if ch = s.routing.chanA then noteOff .a note vel s else s
    let mono := if ch = s.routing.chanB then noteOff .b note vel monoA else monoA
    exec (.noteOff ch note vel) s = .next (if s.routing.poly then poly else mono)

/-- A polyphonic release of CV-A's only held note (44_router.md R268): nothing is played again, the line is low with
no timer, and in Gate mode its level is emitted twice, else once. -/
def Obligations.PolyphonicReleaseClearsTheLine : Prop :=
  ∀ (note vel : Data7) (s : State),
    s.routing.poly = true → isHeld s.cvA.rt.held note = true → dropNote s.cvA.rt.held note = 0 →
      exec (.noteOff s.routing.chanA note vel) s =
        .next { s with
          cvA := { s.cvA with
            rt := { s.cvA.rt with held := 0 }
            out := { s.cvA.out with trigLine := false, trigCnt := 0 } }
          trace := s.trace ++ List.replicate (if s.cvA.set.trigMode = .gate then 2 else 1) (.line .a false) }

/-- `CC`, whole (44_router.md R270, 42_control_change.md R200): an unmapped number does nothing; a global action is
performed once when the MIDI channel is any of the three configured; a channel action is performed on each channel
whose MIDI channel matches. -/
def Obligations.CcRoutesTheAction : Prop :=
  ∀ (ch : MidiChannel) (num val : Data7) (s : State),
    exec (.cc ch num val) s =
      .next
        (match s.cfg.ccMap.lookup num with
        | none => s
        | some (.global a) =>
          if ch = s.routing.chanA ∨ ch = s.routing.chanB ∨ ch = s.routing.chanKbd then
            { s with routing := globalAction s.cfg.ccScale a val s.routing }
          else s
        | some (.chan a) =>
          { s with
            cvA := if ch = s.routing.chanA then
                { s.cvA with set := chanAction s.cfg.ccScale a val s.cvA.set } else s.cvA
            cvB := if ch = s.routing.chanB then
                { s.cvB with set := chanAction s.cfg.ccScale a val s.cvB.set } else s.cvB })

/-- A `CC` acts exactly as the register writes of its action (42_control_change.md R218): for each action, on each
channel whose MIDI channel matches, the register of 10_state.md R65 and the value that R204 to R217 give it, the
other fields of a shared register unchanged. It emits nothing and touches no runtime state, and an unmapped number
writes nothing. A register write is what `REG_WRITE` does (45_system.md R293). -/
def Obligations.CcIsASequenceOfRegisterWrites : Prop :=
  (∀ (a : RegAddr) (v : Half) (s : State), exec (.regWrite a v) s = .next (regWrite a v s)) ∧
  ∀ (ch : MidiChannel) (num val : Data7) (s : State),
    let sc := s.cfg.ccScale
    let v := val.toNat
    let chanWrites := fun (c : Chan) (a : ChanAction) =>
      let set := (s.chan c).set
      let reg := fun (offset : Nat) (n : Nat) =>
        (BitVec.ofNat 8 ((if c = .a then 0x20 else 0x40) + offset), BitVec.ofNat 16 n)
      match a with
      | .trigLen => [reg 0x01 (lin sc.trigLen val).toNat]
      | .pbRange => [reg 0x0A (lin sc.pbRange val).toNat]
      | .portaOn => [reg 0x02 (if 64 ≤ v then 1 else 0)]
      | .portaTime => [reg 0x03 (lin sc.portaTime val).toNat, reg 0x04 (lin sc.portaTime val).toNat]
      | .portaAsc => [reg 0x03 (lin sc.portaAsc val).toNat]
      | .portaDesc => [reg 0x04 (lin sc.portaDesc val).toNat]
      | .vibRate => [reg 0x06 (lin sc.vibRate val).toNat]
      | .vibDepth => [reg 0x08 (lin sc.vibDepth val).toNat]
      | .vibDelay => [reg 0x09 (lin sc.vibDelay val).toNat]
      | .vibSyncOn =>
        [reg 0x05 ((if 64 ≤ v then 2 else 1) + 4 * set.vibShape.code.toNat + 16 * set.vibPhaseQ.toNat)]
      | .retrigMode => [reg 0x00 (set.trigMode.code.toNat + 4 * (v / 32))]
      | .trigMode => [reg 0x00 (3 * v / 128 + 4 * set.retrigMode.code.toNat)]
    let globalWrites := fun a : GlobalAction =>
      match a with
      | .advWidth => [((0x03 : RegAddr), BitVec.ofNat 16 (lin sc.advWidth val).toNat)]
      | .clkDiv => [(0x02, BitVec.ofNat 16 ([1, 2, 3, 4, 6, 8, 12, 24].getD (v / 16) 0))]
    let writes : List (RegAddr × Half) :=
      match s.cfg.ccMap.lookup num with
      | none => []
      | some (.global a) =>
        if ch = s.routing.chanA ∨ ch = s.routing.chanB ∨ ch = s.routing.chanKbd then globalWrites a else []
      | some (.chan a) =>
        (if ch = s.routing.chanA then chanWrites .a a else [])
          ++ (if ch = s.routing.chanB then chanWrites .b a else [])
    ∃ t, exec (.cc ch num val) s = .next t ∧
      t = writes.foldl (fun u p => regWrite p.1 p.2 u) s ∧
      (s.cfg.ccMap.lookup num = none → t = s) ∧
      t.trace = s.trace ∧ t.seq = s.seq ∧ t.ms = s.ms ∧ t.msHiLatch = s.msHiLatch ∧ t.advCount = s.advCount ∧
      ∀ c, (t.chan c).rt = (s.chan c).rt ∧ (t.chan c).out = (s.chan c).out

/-- The linear scaling (42_control_change.md R202): `lo` at 0, `hi` at 127, the floor of the line between, never
outside the two, and so never cut by the register's width. -/
def Obligations.LinearScalingRunsFromLoToHi : Prop :=
  ∀ (w : Nat) (sc : Scale w) (v : Data7),
    (lin sc v).toNat = (sc.lo.toNat * (127 - v.toNat) + sc.hi.toNat * v.toNat) / 127 ∧
    lin sc 0 = sc.lo ∧ lin sc 127 = sc.hi ∧
    min sc.lo.toNat sc.hi.toNat ≤ (lin sc v).toNat ∧ (lin sc v).toNat ≤ max sc.lo.toNat sc.hi.toNat

/-- The scaled actions (42_control_change.md R203 to R205, R207 to R212, R216): for every `CC_SCALE`, each stores `lin`
of its own pair in its own setting and changes no other; with the default `CC_SCALE` the stored value has its closed
form. The defaults are the spec's own (notes/assumptions/4.md). -/
def Obligations.DefaultScalesHaveClosedForms : Prop :=
  (∀ (sc : CcScale) (val : Data7) (set : Settings) (g : Routing),
    let act := fun a => chanAction sc a val set
    act .trigLen = { set with trigLen := lin sc.trigLen val } ∧
    act .pbRange = { set with pbRange := lin sc.pbRange val } ∧
    act .portaTime = { set with portaAsc := lin sc.portaTime val, portaDesc := lin sc.portaTime val } ∧
    act .portaAsc = { set with portaAsc := lin sc.portaAsc val } ∧
    act .portaDesc = { set with portaDesc := lin sc.portaDesc val } ∧
    act .vibRate = { set with vibPeriod := lin sc.vibRate val } ∧
    act .vibDepth = { set with vibDepth := lin sc.vibDepth val } ∧
    act .vibDelay = { set with vibDelay := lin sc.vibDelay val } ∧
    globalAction sc .advWidth val g = { g with advWidth := lin sc.advWidth val }) ∧
  ∀ (val : Data7) (set : Settings) (g : Routing),
    let act := fun a => chanAction defaultCcScale a val set
    let ms := BitVec.ofNat 16 (20 * val.toNat)
    act .trigLen = { set with trigLen := BitVec.ofNat 16 (val.toNat + 1) } ∧
    act .pbRange = { set with pbRange := BitVec.ofNat 7 (24 * val.toNat / 127) } ∧
    act .portaTime = { set with portaAsc := ms, portaDesc := ms } ∧
    act .portaAsc = { set with portaAsc := ms } ∧
    act .portaDesc = { set with portaDesc := ms } ∧
    act .vibRate =
      { set with vibPeriod := BitVec.ofNat 16 ((2000 * (127 - val.toNat) + 50 * val.toNat) / 127) } ∧
    act .vibDepth = { set with vibDepth := BitVec.ofNat 12 val.toNat } ∧
    act .vibDelay = { set with vibDelay := ms } ∧
    globalAction defaultCcScale .advWidth val g = { g with advWidth := BitVec.ofNat 8 (val.toNat + 1) }

/-- The switch, enumeration and division actions (42_control_change.md R206, R213, R214, R215, R217), for every
`CC_SCALE`; each writes that setting and no other. -/
def Obligations.EnumeratedActionsSplitTheRange : Prop :=
  ∀ (sc : CcScale) (val : Data7) (set : Settings) (g : Routing),
    let v := val.toNat
    chanAction sc .portaOn val set = { set with portaEn := decide (64 ≤ v) } ∧
    chanAction sc .vibSyncOn val set = { set with vibMode := if 64 ≤ v then .tempoSync else .free } ∧
    chanAction sc .retrigMode val set =
      { set with
        retrigMode :=
          if v ≤ 31 then .off else if v ≤ 63 then .highest else if v ≤ 95 then .lowest else .latest } ∧
    chanAction sc .trigMode val set =
      { set with trigMode := if v ≤ 42 then .none else if v ≤ 85 then .trig else .gate } ∧
    globalAction sc .clkDiv val g =
      { g with clkDiv :=
          if v ≤ 15 then 1 else if v ≤ 31 then 2 else if v ≤ 47 then 3 else if v ≤ 63 then 4
          else if v ≤ 79 then 6 else if v ≤ 95 then 8 else if v ≤ 111 then 12 else 24 }

/-! ### Sequencer -/

/-- `pps` (43_sequencer.md R231): the floor of 24 over the division, at least 1, at most 24, with the spec's values. -/
def Obligations.PulsesPerStepIsFlooredDivision : Prop :=
  (∀ d : BitVec 5, 1 ≤ d.toNat → d.toNat ≤ 24 →
    pulsesPerStep d = max 1 (24 / d.toNat) ∧ 1 ≤ pulsesPerStep d ∧ pulsesPerStep d ≤ 24) ∧
  [1, 2, 3, 4, 6, 8, 12, 24].map pulsesPerStep = [24, 12, 8, 6, 4, 3, 2, 1] ∧
  pulsesPerStep 5 = 4 ∧ pulsesPerStep 7 = 3 ∧
  ∀ d : BitVec 5, 13 ≤ d.toNat → d.toNat ≤ 23 → pulsesPerStep d = 1

/-- `steps_between` (43_sequencer.md R232, R233): its two lines for all operands, never above 7, and between steps one
advance more than it lands on the target, with eight advances for a step to itself. -/
def Obligations.StepsBetweenPlusOneLandsOnTarget : Prop :=
  (∀ cur tgt : Int, (stepsBetween cur tgt : Int) = if cur = 0 ∨ cur = tgt then 7 else (tgt - cur - 1) % 8) ∧
  (∀ cur tgt : Int, stepsBetween cur tgt ≤ 7) ∧
  ∀ cur tgt : Nat, 1 ≤ cur → cur ≤ 8 → 1 ≤ tgt → tgt ≤ 8 →
    extAfter cur (stepsBetween cur tgt + 1) = tgt ∧ (cur = tgt → stepsBetween cur tgt + 1 = 8)

/-- `START`, whole (43_sequencer.md R235). -/
def Obligations.StartRepositionsAndFollows : Prop :=
  ∀ s : State,
    let n := stepsBetween s.seq.step.toNat 1
    exec .start s =
      .next (if s.seq.mode = .ccs then
        { s with
          seq := { s.seq with following := true, cnt := 0, step := 0 }
          advCount := s.advCount + BitVec.ofNat 16 n
          trace := s.trace ++ List.replicate n .adv }
      else s)

/-- `STOP` and `CONTINUE`, whole (43_sequencer.md R236, R237). -/
def Obligations.StopAndContinueWriteFollowing : Prop :=
  ∀ s : State,
    exec .stop s = .next (if s.seq.mode = .ccs then { s with seq := { s.seq with following := false } } else s) ∧
    exec .cont s = .next (if s.seq.mode = .ccs then { s with seq := { s.seq with following := true } } else s)

/-- `CLOCK`, whole (43_sequencer.md R238). -/
def Obligations.ClockCountsAndAdvances : Prop :=
  ∀ s : State,
    let cnt := s.seq.cnt.toNat % max 1 (24 / s.routing.clkDiv.toNat) + 1
    exec .clock s =
      .next (if s.seq.mode = .ccs ∧ s.seq.following = true then
        { s with
          seq := { s.seq with
            cnt := BitVec.ofNat 5 cnt
            step := if cnt = 1 then BitVec.ofNat 4 (s.seq.step.toNat % 8 + 1) else s.seq.step }
          advCount := if cnt = 1 then s.advCount + 1 else s.advCount
          trace := s.trace ++ (if cnt = 1 then [.adv] else []) }
      else s)

/-- From the start of a step, `n` times `pps` clocks advance the sequence by exactly `n` steps, each with one pulse,
and end on a full count (43_sequencer.md R238). -/
def Obligations.ClocksAdvanceOnceEveryPps : Prop :=
  ∀ (s : State) (n : Nat),
    s.seq.mode = .ccs → s.seq.following = true →
    (s.seq.cnt = 0 ∨ s.seq.cnt.toNat = pulsesPerStep s.routing.clkDiv) →
      ∃ t, execTimes .clock (n * pulsesPerStep s.routing.clkDiv) s = .next t ∧
        t.trace = s.trace ++ List.replicate n .adv ∧
        t.seq.step.toNat = extAfter s.seq.step.toNat n ∧
        (n ≠ 0 → t.seq.cnt.toNat = pulsesPerStep s.routing.clkDiv) ∧
        t.cvA = s.cvA ∧ t.cvB = s.cvB

/-- `POLL`, whole (43_sequencer.md R239, R240, R241). -/
def Obligations.PollTransitionsThenSyncs : Prop :=
  ∀ (sw : Mode) (sync : Bool) (s : State),
    let n := if sw = s.seq.mode then 0 else stepsBetween s.seq.step.toNat 1
    exec (.poll sw sync) s =
      .next { s with
        seq := { s.seq with
          mode := sw
          cnt := if sw = s.seq.mode then s.seq.cnt else 0
          step := if sync then 1 else if sw = s.seq.mode then s.seq.step else 0 }
        advCount := s.advCount + BitVec.ofNat 16 n
        trace := s.trace ++ List.replicate n .adv }

/-- `kbd_jump`, whole (43_sequencer.md R242): the first entry that holds the note decides; no entry, no change. -/
def Obligations.KeyboardJumpTakesTheFirstMatch : Prop :=
  ∀ (note : Data7) (s : State),
    (∀ i : Fin 8, s.routing.kbdMap[i].toNat = note.toNat →
      (∀ j : Fin 8, j < i → s.routing.kbdMap[j].toNat ≠ note.toNat) →
        let n := stepsBetween s.seq.step.toNat (i.val + 1) + 1
        kbdJump note s =
          { s with
            seq := { s.seq with step := BitVec.ofNat 4 (i.val + 1) }
            advCount := s.advCount + BitVec.ofNat 16 n
            trace := s.trace ++ List.replicate n .adv } ∧
        1 ≤ n ∧ n ≤ 8) ∧
    ((∀ i : Fin 8, s.routing.kbdMap[i].toNat ≠ note.toNat) → kbdJump note s = s)

/-! ### Rules of the whole machine -/

/-- What a command may not change (10_state.md R20, R21, R25, R31, R40 to R60, 41_cv_pipeline.md R183,
60_exceptions.md R325): the configuration and the waiting commands never; the time only by `TICK`; the mode only by
a `POLL` with another switch level; a channel's bend only by a `PBEND` on its MIDI channel; the settings only by
`CC` and `REG_WRITE`; the first-note flag only by `NOTE_ON`, or by a `NOTE_OFF` that plays a note again, and it is
never cleared. -/
def Obligations.RegistersHaveOnlyTheirWriters : Prop :=
  ∀ (i : Instr) (s t : State), exec i s = .next t →
    t.cfg = s.cfg ∧ t.port = s.port ∧
    t.ms = (if i = .tick then s.ms + 1 else s.ms) ∧
    (t.seq.mode ≠ s.seq.mode → ∃ sync, i = .poll t.seq.mode sync) ∧
    (t.cvA.rt.pb ≠ s.cvA.rt.pb → i = .pbend s.routing.chanA t.cvA.rt.pb) ∧
    (t.cvB.rt.pb ≠ s.cvB.rt.pb → i = .pbend s.routing.chanB t.cvB.rt.pb) ∧
    ((t.routing ≠ s.routing ∨ ∃ c, (t.chan c).set ≠ (s.chan c).set) →
      (∃ ch num val, i = .cc ch num val) ∨ ∃ a v, i = .regWrite a v) ∧
    ∀ c,
      ((s.chan c).rt.haveNote = true → (t.chan c).rt.haveNote = true) ∧
      ((t.chan c).rt.haveNote ≠ (s.chan c).rt.haveNote →
        (∃ ch note vel, i = .noteOn ch note vel) ∨
          ((s.chan c).set.retrigMode ≠ .off ∧ ∃ ch note vel, i = .noteOff ch note vel))

/-- The trace only grows; advance pulses are emitted by `START`, `CLOCK`, `POLL` and `NOTE_ON` only, at most eight in a
command, and `adv_count` grows by their number (43_sequencer.md R234, R243). -/
def Obligations.OnlyFourCommandsEmitPulses : Prop :=
  ∀ (i : Instr) (s t : State), exec i s = .next t →
    ∃ es, t.trace = s.trace ++ es ∧
      t.advCount = s.advCount + BitVec.ofNat 16 (advPulses es) ∧ advPulses es ≤ 8 ∧
      (advPulses es ≠ 0 →
        i = .start ∨ i = .clock ∨ (∃ sw sync, i = .poll sw sync) ∨ ∃ ch note vel, i = .noteOn ch note vel)

/-- Event commands reach only the channels that their MIDI channel names (44_router.md R260): a command on no
configured MIDI channel changes nothing; one that is not on CV-A's leaves CV-A as it is; in monophonic allocation
one that is not on CV-B's leaves CV-B as it is. -/
def Obligations.EventsReachOnlyTheirChannels : Prop :=
  ∀ (i : Instr) (s t : State) (ch : MidiChannel) (d1 d2 : Data7) (amount : BitVec 14),
    i ∈ [Instr.noteOn ch d1 d2, .noteOff ch d1 d2, .cc ch d1 d2, .pbend ch amount] → exec i s = .next t →
      (ch ≠ s.routing.chanA → ch ≠ s.routing.chanB → ch ≠ s.routing.chanKbd → t = s) ∧
      (ch ≠ s.routing.chanA → t.cvA = s.cvA) ∧
      (s.routing.poly = false → ch ≠ s.routing.chanB → t.cvB = s.cvB)

/-! ### Environment -/

/-- Arbitration (60_exceptions.md R322): `TICK` ranks first, then the event commands, then `PROGRESS`, then `POLL`,
then the host commands; the commands ready together are presented by that rank, all of them, and those of one rank
in their order of arrival. The order inside the host rank is the model's choice (notes/assumptions/12.md). -/
def Obligations.ArbitrationOrdersByRank : Prop :=
  (priority .tick = 0 ∧
    (∀ ch d1 d2, priority (.noteOff ch d1 d2) = 1 ∧ priority (.noteOn ch d1 d2) = 1 ∧
      priority (.cc ch d1 d2) = 1) ∧
    (∀ ch amount, priority (.pbend ch amount) = 1) ∧
    priority .clock = 1 ∧ priority .start = 1 ∧ priority .cont = 1 ∧ priority .stop = 1 ∧
    priority .progress = 2 ∧
    (∀ sw sync, priority (.poll sw sync) = 3) ∧
    (∀ a v, priority (.regWrite a v) = 4) ∧ (∀ a, priority (.regRead a) = 4) ∧
    (∀ c, priority (.allNotesOff c) = 4) ∧ priority .nop = 4) ∧
  ∀ ready : List Instr,
    (arbitrate ready).Perm ready ∧ (arbitrate ready).Pairwise (fun i j => priority i ≤ priority j) ∧
    ∀ p, (arbitrate ready).filter (fun i => priority i == p) = ready.filter (fun i => priority i == p)
end

