-- ==== Sys2Proof/Laws/State.lean ====
section
/-! SUPPORT. One lemma per field per update of `State`, so that no later proof unfolds an update. -/

namespace Sys2Proof.Machine

@[simp] theorem chan_a (s : State) : s.chan .a = s.cvA := rfl
@[simp] theorem chan_b (s : State) : s.chan .b = s.cvB := rfl

/-- The other channel. -/
theorem chan_ne_iff (c d : Chan) : d ≠ c ↔ (c = .a ∧ d = .b) ∨ (c = .b ∧ d = .a) := by
  cases c <;> cases d <;> simp

/-! ### `setChan` -/

@[simp] theorem chan_setChan_self (s : State) (c : Chan) (ch : Channel) : (s.setChan c ch).chan c = ch := by
  cases c <;> rfl
theorem chan_setChan_ne (s : State) {c d : Chan} (ch : Channel) (h : d ≠ c) : (s.setChan c ch).chan d = s.chan d := by
  cases c <;> cases d <;> first | rfl | exact absurd rfl h
theorem chan_setChan (s : State) (c d : Chan) (ch : Channel) :
    (s.setChan c ch).chan d = if d = c then ch else s.chan d := by
  cases c <;> cases d <;> rfl
@[simp] theorem setChan_setChan (s : State) (c : Chan) (x y : Channel) : (s.setChan c x).setChan c y = s.setChan c y := by
  cases c <;> rfl
@[simp] theorem setChan_chan (s : State) (c : Chan) : s.setChan c (s.chan c) = s := by
  cases c <;> rfl
@[simp] theorem setChan_cfg (s : State) (c : Chan) (ch : Channel) : (s.setChan c ch).cfg = s.cfg := by
  cases c <;> rfl
@[simp] theorem setChan_ms (s : State) (c : Chan) (ch : Channel) : (s.setChan c ch).ms = s.ms := by
  cases c <;> rfl
@[simp] theorem setChan_seq (s : State) (c : Chan) (ch : Channel) : (s.setChan c ch).seq = s.seq := by
  cases c <;> rfl
@[simp] theorem setChan_routing (s : State) (c : Chan) (ch : Channel) : (s.setChan c ch).routing = s.routing := by
  cases c <;> rfl
@[simp] theorem setChan_msHiLatch (s : State) (c : Chan) (ch : Channel) : (s.setChan c ch).msHiLatch = s.msHiLatch := by
  cases c <;> rfl
@[simp] theorem setChan_advCount (s : State) (c : Chan) (ch : Channel) : (s.setChan c ch).advCount = s.advCount := by
  cases c <;> rfl
@[simp] theorem setChan_trace (s : State) (c : Chan) (ch : Channel) : (s.setChan c ch).trace = s.trace := by
  cases c <;> rfl
@[simp] theorem setChan_port (s : State) (c : Chan) (ch : Channel) : (s.setChan c ch).port = s.port := by
  cases c <;> rfl

/-! ### `updRt` -/

@[simp] theorem updRt_chan_self (s : State) (c : Chan) (f : Runtime → Runtime) :
    (s.updRt c f).chan c = { s.chan c with rt := f (s.chan c).rt } := chan_setChan_self _ _ _
theorem updRt_chan_ne (s : State) {c d : Chan} (f : Runtime → Runtime) (h : d ≠ c) : (s.updRt c f).chan d = s.chan d :=
  chan_setChan_ne _ _ h
theorem updRt_chan (s : State) (c d : Chan) (f : Runtime → Runtime) :
    (s.updRt c f).chan d = if d = c then { s.chan c with rt := f (s.chan c).rt } else s.chan d := chan_setChan _ _ _ _
@[simp] theorem updRt_cfg (s : State) (c : Chan) (f : Runtime → Runtime) : (s.updRt c f).cfg = s.cfg := setChan_cfg _ _ _
@[simp] theorem updRt_ms (s : State) (c : Chan) (f : Runtime → Runtime) : (s.updRt c f).ms = s.ms := setChan_ms _ _ _
@[simp] theorem updRt_seq (s : State) (c : Chan) (f : Runtime → Runtime) : (s.updRt c f).seq = s.seq := setChan_seq _ _ _
@[simp] theorem updRt_routing (s : State) (c : Chan) (f : Runtime → Runtime) : (s.updRt c f).routing = s.routing := setChan_routing _ _ _
@[simp] theorem updRt_msHiLatch (s : State) (c : Chan) (f : Runtime → Runtime) : (s.updRt c f).msHiLatch = s.msHiLatch := setChan_msHiLatch _ _ _
@[simp] theorem updRt_advCount (s : State) (c : Chan) (f : Runtime → Runtime) : (s.updRt c f).advCount = s.advCount := setChan_advCount _ _ _
@[simp] theorem updRt_trace (s : State) (c : Chan) (f : Runtime → Runtime) : (s.updRt c f).trace = s.trace := setChan_trace _ _ _
@[simp] theorem updRt_port (s : State) (c : Chan) (f : Runtime → Runtime) : (s.updRt c f).port = s.port := setChan_port _ _ _

/-! ### `updOut` -/

@[simp] theorem updOut_chan_self (s : State) (c : Chan) (f : Outputs → Outputs) :
    (s.updOut c f).chan c = { s.chan c with out := f (s.chan c).out } := chan_setChan_self _ _ _
theorem updOut_chan_ne (s : State) {c d : Chan} (f : Outputs → Outputs) (h : d ≠ c) : (s.updOut c f).chan d = s.chan d :=
  chan_setChan_ne _ _ h
theorem updOut_chan (s : State) (c d : Chan) (f : Outputs → Outputs) :
    (s.updOut c f).chan d = if d = c then { s.chan c with out := f (s.chan c).out } else s.chan d := chan_setChan _ _ _ _
@[simp] theorem updOut_cfg (s : State) (c : Chan) (f : Outputs → Outputs) : (s.updOut c f).cfg = s.cfg := setChan_cfg _ _ _
@[simp] theorem updOut_ms (s : State) (c : Chan) (f : Outputs → Outputs) : (s.updOut c f).ms = s.ms := setChan_ms _ _ _
@[simp] theorem updOut_seq (s : State) (c : Chan) (f : Outputs → Outputs) : (s.updOut c f).seq = s.seq := setChan_seq _ _ _
@[simp] theorem updOut_routing (s : State) (c : Chan) (f : Outputs → Outputs) : (s.updOut c f).routing = s.routing := setChan_routing _ _ _
@[simp] theorem updOut_msHiLatch (s : State) (c : Chan) (f : Outputs → Outputs) : (s.updOut c f).msHiLatch = s.msHiLatch := setChan_msHiLatch _ _ _
@[simp] theorem updOut_advCount (s : State) (c : Chan) (f : Outputs → Outputs) : (s.updOut c f).advCount = s.advCount := setChan_advCount _ _ _
@[simp] theorem updOut_trace (s : State) (c : Chan) (f : Outputs → Outputs) : (s.updOut c f).trace = s.trace := setChan_trace _ _ _
@[simp] theorem updOut_port (s : State) (c : Chan) (f : Outputs → Outputs) : (s.updOut c f).port = s.port := setChan_port _ _ _

/-! ### `updSet` -/

@[simp] theorem updSet_chan_self (s : State) (c : Chan) (f : Settings → Settings) :
    (s.updSet c f).chan c = { s.chan c with set := f (s.chan c).set } := chan_setChan_self _ _ _
theorem updSet_chan_ne (s : State) {c d : Chan} (f : Settings → Settings) (h : d ≠ c) : (s.updSet c f).chan d = s.chan d :=
  chan_setChan_ne _ _ h
theorem updSet_chan (s : State) (c d : Chan) (f : Settings → Settings) :
    (s.updSet c f).chan d = if d = c then { s.chan c with set := f (s.chan c).set } else s.chan d := chan_setChan _ _ _ _
@[simp] theorem updSet_cfg (s : State) (c : Chan) (f : Settings → Settings) : (s.updSet c f).cfg = s.cfg := setChan_cfg _ _ _
@[simp] theorem updSet_ms (s : State) (c : Chan) (f : Settings → Settings) : (s.updSet c f).ms = s.ms := setChan_ms _ _ _
@[simp] theorem updSet_seq (s : State) (c : Chan) (f : Settings → Settings) : (s.updSet c f).seq = s.seq := setChan_seq _ _ _
@[simp] theorem updSet_routing (s : State) (c : Chan) (f : Settings → Settings) : (s.updSet c f).routing = s.routing := setChan_routing _ _ _
@[simp] theorem updSet_msHiLatch (s : State) (c : Chan) (f : Settings → Settings) : (s.updSet c f).msHiLatch = s.msHiLatch := setChan_msHiLatch _ _ _
@[simp] theorem updSet_advCount (s : State) (c : Chan) (f : Settings → Settings) : (s.updSet c f).advCount = s.advCount := setChan_advCount _ _ _
@[simp] theorem updSet_trace (s : State) (c : Chan) (f : Settings → Settings) : (s.updSet c f).trace = s.trace := setChan_trace _ _ _
@[simp] theorem updSet_port (s : State) (c : Chan) (f : Settings → Settings) : (s.updSet c f).port = s.port := setChan_port _ _ _

/-! ### `emit` -/

@[simp] theorem emit_chan (s : State) (e : OutEvent) (c : Chan) : (s.emit e).chan c = s.chan c := by
  cases c <;> rfl
@[simp] theorem emit_cfg (s : State) (e : OutEvent) : (s.emit e).cfg = s.cfg := rfl
@[simp] theorem emit_ms (s : State) (e : OutEvent) : (s.emit e).ms = s.ms := rfl
@[simp] theorem emit_seq (s : State) (e : OutEvent) : (s.emit e).seq = s.seq := rfl
@[simp] theorem emit_routing (s : State) (e : OutEvent) : (s.emit e).routing = s.routing := rfl
@[simp] theorem emit_msHiLatch (s : State) (e : OutEvent) : (s.emit e).msHiLatch = s.msHiLatch := rfl
@[simp] theorem emit_advCount (s : State) (e : OutEvent) : (s.emit e).advCount = s.advCount := rfl
@[simp] theorem emit_trace (s : State) (e : OutEvent) : (s.emit e).trace = s.trace ++ [e] := rfl
@[simp] theorem emit_port (s : State) (e : OutEvent) : (s.emit e).port = s.port := rfl
@[simp] theorem emit_cvA (s : State) (e : OutEvent) : (s.emit e).cvA = s.cvA := rfl
@[simp] theorem emit_cvB (s : State) (e : OutEvent) : (s.emit e).cvB = s.cvB := rfl

/-! ### `updSeq` -/

@[simp] theorem updSeq_chan (s : State) (f : Sequencer → Sequencer) (c : Chan) : (s.updSeq f).chan c = s.chan c := by
  cases c <;> rfl
@[simp] theorem updSeq_cfg (s : State) (f : Sequencer → Sequencer) : (s.updSeq f).cfg = s.cfg := rfl
@[simp] theorem updSeq_ms (s : State) (f : Sequencer → Sequencer) : (s.updSeq f).ms = s.ms := rfl
@[simp] theorem updSeq_seq (s : State) (f : Sequencer → Sequencer) : (s.updSeq f).seq = f s.seq := rfl
@[simp] theorem updSeq_routing (s : State) (f : Sequencer → Sequencer) : (s.updSeq f).routing = s.routing := rfl
@[simp] theorem updSeq_msHiLatch (s : State) (f : Sequencer → Sequencer) : (s.updSeq f).msHiLatch = s.msHiLatch := rfl
@[simp] theorem updSeq_advCount (s : State) (f : Sequencer → Sequencer) : (s.updSeq f).advCount = s.advCount := rfl
@[simp] theorem updSeq_trace (s : State) (f : Sequencer → Sequencer) : (s.updSeq f).trace = s.trace := rfl
@[simp] theorem updSeq_port (s : State) (f : Sequencer → Sequencer) : (s.updSeq f).port = s.port := rfl
@[simp] theorem updSeq_cvA (s : State) (f : Sequencer → Sequencer) : (s.updSeq f).cvA = s.cvA := rfl
@[simp] theorem updSeq_cvB (s : State) (f : Sequencer → Sequencer) : (s.updSeq f).cvB = s.cvB := rfl

/-! ### `updRouting` -/

@[simp] theorem updRouting_chan (s : State) (f : Routing → Routing) (c : Chan) : (s.updRouting f).chan c = s.chan c := by
  cases c <;> rfl
@[simp] theorem updRouting_cfg (s : State) (f : Routing → Routing) : (s.updRouting f).cfg = s.cfg := rfl
@[simp] theorem updRouting_ms (s : State) (f : Routing → Routing) : (s.updRouting f).ms = s.ms := rfl
@[simp] theorem updRouting_seq (s : State) (f : Routing → Routing) : (s.updRouting f).seq = s.seq := rfl
@[simp] theorem updRouting_routing (s : State) (f : Routing → Routing) : (s.updRouting f).routing = f s.routing := rfl
@[simp] theorem updRouting_msHiLatch (s : State) (f : Routing → Routing) : (s.updRouting f).msHiLatch = s.msHiLatch := rfl
@[simp] theorem updRouting_advCount (s : State) (f : Routing → Routing) : (s.updRouting f).advCount = s.advCount := rfl
@[simp] theorem updRouting_trace (s : State) (f : Routing → Routing) : (s.updRouting f).trace = s.trace := rfl
@[simp] theorem updRouting_port (s : State) (f : Routing → Routing) : (s.updRouting f).port = s.port := rfl
@[simp] theorem updRouting_cvA (s : State) (f : Routing → Routing) : (s.updRouting f).cvA = s.cvA := rfl
@[simp] theorem updRouting_cvB (s : State) (f : Routing → Routing) : (s.updRouting f).cvB = s.cvB := rfl

/-- Two states with the same fields are the same state. -/
theorem State.eq_of_fields {s t : State} (hcfg : s.cfg = t.cfg) (hms : s.ms = t.ms) (hch : ∀ c, s.chan c = t.chan c)
    (hseq : s.seq = t.seq) (hr : s.routing = t.routing) (hl : s.msHiLatch = t.msHiLatch)
    (ha : s.advCount = t.advCount) (ht : s.trace = t.trace) (hp : s.port = t.port) : s = t := by
  have hA := hch .a
  have hB := hch .b
  cases s
  cases t
  simp_all

end Sys2Proof.Machine
end

