-- ==== Sys2Proof/Laws/Ops.lean ====
section
/-! SUPPORT. For each shared operation, once, everything it does. -/

namespace Sys2Proof.Machine

/-- `adv n` counts `n` pulses modulo 65536, appends `n` pulses to the trace and changes nothing else. -/
theorem adv_eq (n : Nat) (s : State) :
    adv n s = { s with advCount := s.advCount + BitVec.ofNat 16 n, trace := s.trace ++ List.replicate n .adv } := by
  induction n generalizing s with
  | zero => simp [adv]
  | succ n ih =>
    rw [adv, ih]
    have hc : s.advCount + 1 + BitVec.ofNat 16 n = s.advCount + BitVec.ofNat 16 (n + 1) := by
      apply BitVec.eq_of_toNat_eq
      simp [BitVec.toNat_add]
      omega
    simp only [State.emit, hc, List.append_assoc, List.singleton_append, List.replicate_succ]

@[simp] theorem adv_cfg (n : Nat) (s : State) : (adv n s).cfg = s.cfg := by rw [adv_eq]
@[simp] theorem adv_ms (n : Nat) (s : State) : (adv n s).ms = s.ms := by rw [adv_eq]
@[simp] theorem adv_seq (n : Nat) (s : State) : (adv n s).seq = s.seq := by rw [adv_eq]
@[simp] theorem adv_routing (n : Nat) (s : State) : (adv n s).routing = s.routing := by rw [adv_eq]
@[simp] theorem adv_msHiLatch (n : Nat) (s : State) : (adv n s).msHiLatch = s.msHiLatch := by rw [adv_eq]
@[simp] theorem adv_port (n : Nat) (s : State) : (adv n s).port = s.port := by rw [adv_eq]
@[simp] theorem adv_cvA (n : Nat) (s : State) : (adv n s).cvA = s.cvA := by rw [adv_eq]
@[simp] theorem adv_cvB (n : Nat) (s : State) : (adv n s).cvB = s.cvB := by rw [adv_eq]
@[simp] theorem adv_chan (n : Nat) (s : State) (c : Chan) : (adv n s).chan c = s.chan c := by
  cases c <;> simp
@[simp] theorem adv_trace (n : Nat) (s : State) : (adv n s).trace = s.trace ++ List.replicate n .adv := by rw [adv_eq]
@[simp] theorem adv_advCount (n : Nat) (s : State) :
    (adv n s).advCount = s.advCount + BitVec.ofNat 16 n := by rw [adv_eq]

/-- What an operation on channel `c` may change: the runtime and output registers of `c`, and the trace, which it
only extends. -/
structure ChanStep (c : Chan) (s t : State) : Prop where
  cfg : t.cfg = s.cfg
  ms : t.ms = s.ms
  seq : t.seq = s.seq
  routing : t.routing = s.routing
  msHiLatch : t.msHiLatch = s.msHiLatch
  advCount : t.advCount = s.advCount
  port : t.port = s.port
  other : ∀ d, d ≠ c → t.chan d = s.chan d
  set : (t.chan c).set = (s.chan c).set
  trace : ∃ es, t.trace = s.trace ++ es ∧ .adv ∉ es

theorem ChanStep.refl (c : Chan) (s : State) : ChanStep c s s where
  cfg := rfl
  ms := rfl
  seq := rfl
  routing := rfl
  msHiLatch := rfl
  advCount := rfl
  port := rfl
  other _ _ := rfl
  set := rfl
  trace := ⟨[], by simp⟩

theorem ChanStep.trans {c : Chan} {s t u : State} (h : ChanStep c s t) (k : ChanStep c t u) : ChanStep c s u where
  cfg := k.cfg.trans h.cfg
  ms := k.ms.trans h.ms
  seq := k.seq.trans h.seq
  routing := k.routing.trans h.routing
  msHiLatch := k.msHiLatch.trans h.msHiLatch
  advCount := k.advCount.trans h.advCount
  port := k.port.trans h.port
  other d hd := (k.other d hd).trans (h.other d hd)
  set := k.set.trans h.set
  trace := by
    obtain ⟨e, he, ha⟩ := h.trace
    obtain ⟨f, hf, hb⟩ := k.trace
    exact ⟨e ++ f, by rw [hf, he, List.append_assoc], by simp [ha, hb]⟩

theorem updRt_step (c : Chan) (f : Runtime → Runtime) (s : State) : ChanStep c s (s.updRt c f) where
  cfg := by simp
  ms := by simp
  seq := by simp
  routing := by simp
  msHiLatch := by simp
  advCount := by simp
  port := by simp
  other d hd := updRt_chan_ne s f hd
  set := by simp
  trace := ⟨[], by simp⟩

theorem updOut_step (c : Chan) (f : Outputs → Outputs) (s : State) : ChanStep c s (s.updOut c f) where
  cfg := by simp
  ms := by simp
  seq := by simp
  routing := by simp
  msHiLatch := by simp
  advCount := by simp
  port := by simp
  other d hd := updOut_chan_ne s f hd
  set := by simp
  trace := ⟨[], by simp⟩

theorem emit_step (c : Chan) (e : OutEvent) (s : State) (h : e ≠ .adv) : ChanStep c s (s.emit e) where
  cfg := rfl
  ms := rfl
  seq := rfl
  routing := rfl
  msHiLatch := rfl
  advCount := rfl
  port := rfl
  other d _ := by simp
  set := by simp
  trace := ⟨[e], by simp [h.symm]⟩

/-- `dacWrite` stores the code, emits its frame and changes nothing else. -/
theorem dacWrite_step (c : Chan) (code : Int) (s : State) : ChanStep c s (dacWrite c code s) :=
  (updOut_step c _ s).trans (emit_step c _ _ (by simp))

@[simp] theorem dacWrite_chan_self (c : Chan) (code : Int) (s : State) :
    (dacWrite c code s).chan c =
      { s.chan c with out := { (s.chan c).out with dacCode := BitVec.ofInt 12 code } } := by simp [dacWrite]

@[simp] theorem dacWrite_trace (c : Chan) (code : Int) (s : State) :
    (dacWrite c code s).trace = s.trace ++ [.dac c (dacFrame s.cfg c (BitVec.ofInt 12 code))] := by simp [dacWrite]

/-- `velWrite` stores the duty, emits it and changes nothing else. -/
theorem velWrite_step (c : Chan) (vel : Data7) (s : State) : ChanStep c s (velWrite c vel s) :=
  (updOut_step c _ s).trans (emit_step c _ _ (by simp))

@[simp] theorem velWrite_chan_self (c : Chan) (vel : Data7) (s : State) :
    (velWrite c vel s).chan c =
      { s.chan c with out := { (s.chan c).out with velDuty := velDutyOf s.cfg vel } } := by simp [velWrite]

@[simp] theorem velWrite_trace (c : Chan) (vel : Data7) (s : State) :
    (velWrite c vel s).trace = s.trace ++ [.vel c (velDutyOf s.cfg vel)] := by simp [velWrite]

/-- `lineClear` lowers the line, cancels its timer, emits the level and changes nothing else. -/
theorem lineClear_step (c : Chan) (s : State) : ChanStep c s (lineClear c s) :=
  (updOut_step c _ s).trans (emit_step c _ _ (by simp))

@[simp] theorem lineClear_chan_self (c : Chan) (s : State) :
    (lineClear c s).chan c =
      { s.chan c with out := { (s.chan c).out with trigLine := false, trigCnt := 0 } } := by simp [lineClear]

@[simp] theorem lineClear_trace (c : Chan) (s : State) :
    (lineClear c s).trace = s.trace ++ [.line c false] := by simp [lineClear]

/-- `emitTrig` changes the channel's line and timer, and the trace, at most. -/
theorem emitTrig_step (c : Chan) (s : State) : ChanStep c s (emitTrig c s) := by
  unfold emitTrig
  split
  · exact ChanStep.refl c s
  · exact (updOut_step c _ s).trans (emit_step c _ _ (by simp))
  · exact (updOut_step c _ s).trans (emit_step c _ _ (by simp))

/-- The registers of channel `c` after `emitTrig`, by trigger mode. -/
theorem emitTrig_chan_self (c : Chan) (s : State) :
    (emitTrig c s).chan c =
      { s.chan c with
        out :=
          match (s.chan c).set.trigMode with
          | .none => (s.chan c).out
          | .trig => { (s.chan c).out with trigLine := true, trigCnt := pulseTicks (s.chan c).set.trigLen }
          | .gate => { (s.chan c).out with trigLine := true, trigCnt := 0 } } := by
  unfold emitTrig
  split <;> rename_i h <;> simp [h]

/-- The events of `emitTrig`. -/
theorem emitTrig_trace (c : Chan) (s : State) :
    (emitTrig c s).trace = s.trace ++ (if (s.chan c).set.trigMode = .none then [] else [.line c true]) := by
  unfold emitTrig
  split <;> rename_i h <;> simp [h]

/-- `fetch` answers the head of the port and the state without it, and nothing when the port is empty. -/
theorem fetch_eq_some_iff (s : State) (w : Word) (t : State) :
    fetch s = some (w, t) ↔ s.port = w :: t.port ∧ t = { s with port := t.port } := by
  unfold fetch
  split
  · rename_i h
    simp [h]
  · rename_i v rest h
    simp only [Option.some.injEq, Prod.mk.injEq, h, List.cons.injEq]
    constructor
    · rintro ⟨rfl, rfl⟩
      simp
    · rintro ⟨⟨rfl, rfl⟩, ht⟩
      exact ⟨rfl, ht.symm⟩

@[simp] theorem fetch_eq_none_iff (s : State) : fetch s = none ↔ s.port = [] := by
  unfold fetch
  split <;> simp_all

/-- A presented word is the one that the next fetch takes, and taking it restores the state. -/
@[simp] theorem fetch_present (w : Word) (s : State) : fetch (present w s) = some (w, s) := rfl

end Sys2Proof.Machine
end

