-- ==== Sys2Proof/Laws/Notes.lean ====
section
/-! SUPPORT. What the channel operations change: each is a step of its own channel. -/

namespace Sys2Proof.Machine

theorem writeCurrent_step (c : Chan) (s : State) : ChanStep c s (writeCurrent c s) := dacWrite_step c _ s

theorem slideProgress_step (c : Chan) (s : State) : ChanStep c s (slideProgress c s) :=
  (updRt_step c _ s).trans (writeCurrent_step c _)

theorem pitchBend_step (c : Chan) (amount : BitVec 14) (s : State) : ChanStep c s (pitchBend c amount s) :=
  (updRt_step c _ s).trans (writeCurrent_step c _)

theorem beginNote_step (c : Chan) (start note : Data7) (s : State) : ChanStep c s (beginNote c start note s) := by
  unfold beginNote
  split
  · exact (updRt_step c _ s).trans (dacWrite_step c _ _)
  · exact updRt_step c _ s

theorem noteOn_step (c : Chan) (note vel : Data7) (sv ah : Bool) (s : State) :
    ChanStep c s (noteOn c note vel sv ah s) := by
  have h := (updRt_step c (noteOnRt s.ms note ah) s).trans
    (beginNote_step c ((s.updRt c (noteOnRt s.ms note ah)).chan c).rt.startNote note _)
  unfold noteOn
  cases sv
  · exact h.trans (emitTrig_step c _)
  · exact (h.trans (velWrite_step c vel _)).trans (emitTrig_step c _)

theorem resound_step (c : Chan) (vel : Data7) (s : State) : ChanStep c s (resound c vel s) := by
  unfold resound
  split
  · exact noteOn_step c _ vel false false s
  · exact ChanStep.refl c s

theorem noteOff_step (c : Chan) (note vel : Data7) (s : State) : ChanStep c s (noteOff c note vel s) := by
  unfold noteOff
  have h := (updRt_step c (fun r => { r with held := dropNote r.held note }) s).trans (resound_step c vel _)
  dsimp only
  split
  · exact h.trans (lineClear_step c _)
  · exact h

theorem allNotesOff_step (c : Chan) (s : State) : ChanStep c s (allNotesOff c s) := by
  unfold allNotesOff
  dsimp only
  split
  · exact (updRt_step c _ s).trans (lineClear_step c _)
  · exact updRt_step c _ s

theorem tickTimer_step (c : Chan) (s : State) : ChanStep c s (tickTimer c s) := by
  unfold tickTimer
  split
  · exact ChanStep.refl c s
  · split
    · exact (updOut_step c _ s).trans (emit_step c _ _ (by simp))
    · exact updOut_step c _ s

theorem polyRelease_step (c : Chan) (note vel : Data7) (s : State) : ChanStep c s (polyRelease c note vel s) := by
  unfold polyRelease
  dsimp only
  split
  · exact (noteOff_step c note vel s).trans (lineClear_step c _)
  · exact noteOff_step c note vel s

/-- `kbdJump` changes the tracked step, the pulse count and the trace at most, by the same number of pulses. -/
theorem kbdJump_eq (note : Data7) (s : State) :
    kbdJump note s = s ∨
      ∃ i, kbdMatch note 0 s.routing.kbdMap.toList = some i ∧
        kbdJump note s =
          { s with
            advCount := s.advCount + BitVec.ofNat 16 (stepsBetween s.seq.step.toNat (i + 1) + 1)
            trace := s.trace ++ List.replicate (stepsBetween s.seq.step.toNat (i + 1) + 1) .adv
            seq := { s.seq with step := BitVec.ofNat 4 (i + 1) } } := by
  unfold kbdJump
  split
  · exact .inl rfl
  · rename_i i h
    exact .inr ⟨i, h, by rw [adv_eq, State.updSeq]⟩

/-- A matched entry of the keyboard map lies inside the part searched. -/
theorem kbdMatch_bound {note : Data7} {i : Nat} {l : List (BitVec 8)} {j : Nat} (h : kbdMatch note i l = some j) :
    i ≤ j ∧ j < i + l.length := by
  induction l generalizing i with
  | nil => simp [kbdMatch] at h
  | cons k ks ih =>
    simp only [kbdMatch] at h
    split at h
    · simp only [Option.some.injEq] at h
      simp
      omega
    · have := ih h
      simp
      omega

/-- `steps_between` never exceeds 7. -/
theorem stepsBetween_le (cur tgt : Int) : stepsBetween cur tgt ≤ 7 := by
  unfold stepsBetween
  split
  · exact le_refl 7
  · omega

end Sys2Proof.Machine
end

