-- ==== Sys2Proof/Laws/PerInstr.lean ====
section
/-! SUPPORT. Families of statements about every command as syntax, one lemma per constructor. -/

namespace Sys2Proof.Laws.EncodingHitsRow

open Sys2Proof

/-- The word of a command has the fixed bits of its opcode row (30_encoding.md R106). -/
def Statement (i : Instr) : Prop := i.mnemonic.row.hits (encode i) = true

/-- A voice word under its mask keeps its major opcode only (30_encoding.md R101). -/
theorem encodeVoice_mask (op : BitVec 4) (ch : MidiChannel) (d1 d2 : Data7) :
    encodeVoice op ch d1 d2 &&& 0xF08080FF = op ++ 0#28 := by
  apply BitVec.eq_of_getLsbD_eq
  intro k hk
  simp only [encodeVoice, BitVec.getLsbD_and, BitVec.getLsbD_append]
  interval_cases k <;> simp

theorem nop : Statement .nop := by unfold Statement; decide
theorem tick : Statement .tick := by unfold Statement; decide
theorem progress : Statement .progress := by unfold Statement; decide
theorem poll (sw : Mode) (sync : Bool) : Statement (.poll sw sync) := by
  unfold Statement; cases sw <;> cases sync <;> decide
theorem allNotesOff (c : Chan) : Statement (.allNotesOff c) := by
  unfold Statement; cases c <;> decide
theorem regWrite (addr : RegAddr) (data : Half) : Statement (.regWrite addr data) := by
  rw [Statement, OpcodeRow.hits, beq_iff_eq]
  apply BitVec.eq_of_getLsbD_eq
  intro k hk
  simp only [encode, Instr.mnemonic, Mnemonic.row, BitVec.getLsbD_and, BitVec.getLsbD_append]
  interval_cases k <;> simp
theorem regRead (addr : RegAddr) : Statement (.regRead addr) := by
  rw [Statement, OpcodeRow.hits, beq_iff_eq]
  apply BitVec.eq_of_getLsbD_eq
  intro k hk
  simp only [encode, Instr.mnemonic, Mnemonic.row, BitVec.getLsbD_and, BitVec.getLsbD_append]
  interval_cases k <;> simp
theorem noteOff (ch : MidiChannel) (note vel : Data7) : Statement (.noteOff ch note vel) := by
  rw [Statement, OpcodeRow.hits, beq_iff_eq]
  exact encodeVoice_mask 0x8#4 ch note vel
theorem noteOn (ch : MidiChannel) (note vel : Data7) : Statement (.noteOn ch note vel) := by
  rw [Statement, OpcodeRow.hits, beq_iff_eq]
  exact encodeVoice_mask 0x9#4 ch note vel
theorem cc (ch : MidiChannel) (num val : Data7) : Statement (.cc ch num val) := by
  rw [Statement, OpcodeRow.hits, beq_iff_eq]
  exact encodeVoice_mask 0xB#4 ch num val
theorem pbend (ch : MidiChannel) (amount : BitVec 14) : Statement (.pbend ch amount) := by
  rw [Statement, OpcodeRow.hits, beq_iff_eq]
  apply BitVec.eq_of_getLsbD_eq
  intro k hk
  simp only [encode, Instr.mnemonic, Mnemonic.row, BitVec.getLsbD_and, BitVec.getLsbD_append]
  interval_cases k <;> simp
theorem clock : Statement .clock := by unfold Statement; decide
theorem start : Statement .start := by unfold Statement; decide
theorem cont : Statement .cont := by unfold Statement; decide
theorem stop : Statement .stop := by unfold Statement; decide

end Sys2Proof.Laws.EncodingHitsRow
end

