-- ==== Sys2Proof/Tests/Slice0.lean ====
section
/-! SUPPORT. Tests: expected results are transcribed from the spec (95_test_vectors.md and the examples of the rules,
named at each test), never from the model. After them, for every obligation that has hypotheses, a concrete
input that meets them. -/

namespace Sys2Proof.Tests

open Sys2Proof Sys2Proof.Machine

/-! ### Helpers -/

/-- The state after a command, which always completes. -/
def ran (i : Instr) (s : State) : State :=
  match exec i s with
  | .next t => t
  | .fault _ => s
  | .refused _ => s

/-- The state after a step, which always completes. -/
def stepped (s : State) : State :=
  match step s with
  | .next t => t
  | .fault _ => s
  | .refused _ => s

/-- The events that a command emits. -/
def events (i : Instr) (s : State) : List OutEvent := (ran i s).trace.drop s.trace.length

/-- The reset state in the mode KCS. -/
def kcs : State := State.launch defaultConfig .kcs

/-- A state with a note 60 sounding on CV-A, as after the example of 44_router.md R262. -/
def sounding : State :=
  { State.reset with
    cvA :=
      { State.reset.cvA with
        rt :=
          { State.reset.cvA.rt with
            held := holdNote 0 60
            histBuf := State.reset.cvA.rt.histBuf.set 0 60
            histHead := 1
            histCnt := 1
            haveNote := true
            startNote := 60
            endNote := 60 }
        out := { trigLine := true, trigCnt := 2, dacCode := 2047, velDuty := 200 } }
    trace := [.dac .a 0x17FF, .vel .a 200, .line .a true] }

/-- A state in the middle of a glide of CV-A from note 48 to note 60, 50 of 100 milliseconds gone
(95_test_vectors.md 2.4). -/
def gliding : State :=
  { State.reset with
    ms := 60
    cvA :=
      { State.reset.cvA with
        rt :=
          { State.reset.cvA.rt with
            haveNote := true
            startNote := 48
            endNote := 60
            sliding := true
            slideT0 := 10
            slideDur := 100
            tOn := 10 } } }

/-- A state with given sequencer registers. -/
def seqAt (step : BitVec 4) (cnt : BitVec 5) (following : Bool) (mode : Mode) : State :=
  { State.reset with seq := { step := step, cnt := cnt, following := following, mode := mode } }

/-! ### WellFormed -/

/-- An operand too few and one too many. -/
theorem test_operand_count_refused :
    SourceLine.problem ⟨.noteOn, [1, 60]⟩ = some .operandCount ∧
      SourceLine.problem ⟨.tick, [0]⟩ = some .operandCount := by decide

/-- MIDI channels run from 1 to 16, bends from -8192 to 8191, the data of a write to 65535 (R110). -/
theorem test_operand_range_refused :
    SourceLine.problem ⟨.noteOn, [0, 60, 100]⟩ = some (.operandRange 0) ∧
      SourceLine.problem ⟨.noteOff, [17, 60, 100]⟩ = some (.operandRange 0) ∧
      SourceLine.problem ⟨.cc, [1, 128, 0]⟩ = some (.operandRange 1) ∧
      SourceLine.problem ⟨.pbend, [1, 8192]⟩ = some (.operandRange 1) ∧
      SourceLine.problem ⟨.regWrite, [0, 65536]⟩ = some (.operandRange 1) ∧
      SourceLine.problem ⟨.poll, [0, 2]⟩ = some (.operandRange 1) ∧
      SourceLine.problem ⟨.allNotesOff, [2]⟩ = some (.operandRange 0) ∧
      SourceLine.problem ⟨.regRead, [-1]⟩ = some (.operandRange 0) := by decide

theorem test_lines_accepted :
    SourceLine.WellFormed ⟨.noteOn, [16, 127, 127]⟩ ∧ SourceLine.WellFormed ⟨.pbend, [1, -8192]⟩ ∧
      SourceLine.WellFormed ⟨.regWrite, [255, 65535]⟩ ∧ SourceLine.WellFormed ⟨.stop, []⟩ := by decide

theorem test_empty_note_range_refused :
    Config.problem { defaultConfig with noteMin := 100, noteMax := 99 } = some .emptyNoteRange := by decide

theorem test_duplicate_cc_number_refused :
    Config.problem { defaultConfig with ccMap := [(5, .chan .portaTime), (5, .global .clkDiv)] }
      = some .duplicateCcNumber := by decide

theorem test_zero_poll_period_refused :
    Config.problem { defaultConfig with swPollTicks := 0 } = some .zeroPollPeriod := by decide

theorem test_default_config_accepted : Config.WellFormed defaultConfig := by decide

/-! ### Decoding (words of 95_test_vectors.md 2.1) -/

theorem test_decode_system :
    decode 0x00000000 = .ok .nop ∧ decode 0x01000000 = .ok .tick ∧ decode 0x02000000 = .ok .progress ∧
      decode 0x03000000 = .ok (.poll .ccs false) ∧ decode 0x03000001 = .ok (.poll .kcs false) ∧
      decode 0x03000002 = .ok (.poll .ccs true) ∧ decode 0x03000003 = .ok (.poll .kcs true) ∧
      decode 0x04000000 = .ok (.allNotesOff .a) ∧ decode 0x04000001 = .ok (.allNotesOff .b) := by decide

theorem test_decode_realtime :
    decode 0xF8000000 = .ok .clock ∧ decode 0xFA000000 = .ok .start ∧ decode 0xFB000000 = .ok .cont ∧
      decode 0xFC000000 = .ok .stop := by decide

theorem test_decode_register :
    decode 0x1002000C = .ok (.regWrite 0x02 12) ∧ decode 0x10040535 = .ok (.regWrite 0x04 1333) ∧
      decode 0x1020000F = .ok (.regWrite 0x20 0x000F) ∧ decode 0x20800000 = .ok (.regRead 0x80) ∧
      decode 0x209D0000 = .ok (.regRead 0x9D) := by decide

theorem test_decode_voice :
    decode 0x803C0000 = .ok (.noteOff 0 60 0) ∧ decode 0x81300000 = .ok (.noteOff 1 48 0) ∧
      decode 0x903C6400 = .ok (.noteOn 0 60 100) ∧ decode 0x9F7F7F00 = .ok (.noteOn 15 127 127) ∧
      decode 0x90000100 = .ok (.noteOn 0 0 1) ∧ decode 0xB0417F00 = .ok (.cc 0 65 127) ∧
      decode 0xB2157000 = .ok (.cc 2 21 112) := by decide

theorem test_decode_bend :
    decode 0xE0000000 = .ok (.pbend 0 0) ∧ decode 0xE0001FFF = .ok (.pbend 0 8191) ∧
      decode 0xE0002000 = .ok (.pbend 0 (BitVec.ofInt 14 (-8192))) ∧
      decode 0xE1003000 = .ok (.pbend 1 (BitVec.ofInt 14 (-4096))) ∧
      decode 0xE0003FFF = .ok (.pbend 0 (BitVec.ofInt 14 (-1))) := by decide

/-- Reserved words of 95_test_vectors.md 2.1: an unused major opcode. -/
theorem test_decode_reserved_major :
    ([0x30000000, 0x70000000, 0xA03C6400, 0xC0050000, 0xD0400000] : List Word).map decode
      = List.replicate 5 (.error .majorOpcode) := by decide

/-- Reserved words of 95_test_vectors.md 2.1: an unused sub-opcode. -/
theorem test_decode_reserved_sub :
    ([0x05000000, 0xF0000000, 0xF9000000, 0xFE000000, 0xFF000000] : List Word).map decode
      = List.replicate 5 (.error .subOpcode) := by decide

/-- Reserved words of 95_test_vectors.md 2.1: a must-be-0 bit set. -/
theorem test_decode_reserved_bit :
    ([0x90BC6400, 0x903CE400, 0x903C6401, 0xE0004000, 0x01000001, 0x03000004, 0x04000002, 0x20800001,
        0x11020006] : List Word).map decode
      = List.replicate 9 (.error .mustBeZero) := by decide

/-- 'No two rows overlap' (30_encoding.md R106): two rows differ in a bit that both fix. -/
theorem test_rows_disjoint :
    Mnemonic.all.Pairwise fun m n => m.row.value &&& n.row.mask ≠ n.row.value &&& m.row.mask := by decide

theorem test_table_word :
    decodeTableWord 32 0x903C6400 = some (.noteOn 0 60 100) ∧ decodeTableWord 32 0x05000000 = none := by decide

/-! ### Assembler text (30_encoding.md R110, R112; words of 95_test_vectors.md) -/

theorem test_assemble_text :
    (assembleText "NOTE_ON 1, 60, 100 ; a note\n\nPBEND 16, 8191\nPOLL KCS, 0\nALL_NOTES_OFF B").map
        (List.map encode)
      = some [0x903C6400, 0xEF001FFF, 0x03000001, 0x04000001] := by decide +kernel

/-- The register names of R110: `TRIG_LEN.A` is 0x21, `CAL.B[3]` is 0x53. -/
theorem test_assemble_register_names :
    assembleText "REG_WRITE TRIG_LEN.A, 3\nREG_READ CAL.B[3]" = some [.regWrite 0x21 3, .regRead 0x53] := by
  decide +kernel

theorem test_assemble_refuses :
    assembleText "NOTE_ON 17, 60, 100" = none ∧ assembleText "HALT" = none ∧ assembleText "TICK 1" = none := by
  decide +kernel

theorem test_pseudo_commands :
    assembleText "WAIT 2" = some [.tick, .progress, .tick, .progress] ∧
      assembleText "UPDATE_MIDI_CHANNELS 1, 1, 3" = some [.regWrite 0x00 0x0200] ∧
      assembleText "SET_TEMPO 1333" = some [.regWrite 0x04 1333] ∧
      assembleText "READ_MS" = some [.regRead 0x82, .regRead 0x83] := by decide +kernel

/-- The operand ranges of the pseudo-commands (notes/assumptions/11.md): a keyboard note is one byte. -/
theorem test_pseudo_commands_refuse :
    assembleText "UPDATE_KEYBOARD_PREFS 60, 61, 62, 63, 64, 65, 66, 256" = none ∧
      assembleText "SET_TEMPO 65536" = none ∧ assembleText "UPDATE_MIDI_CHANNELS 0, 1, 3" = none := by decide +kernel

/-- `LOAD_CAL` and `UPDATE_KEYBOARD_PREFS` (R112, vector T3). -/
theorem test_table_loads :
    (loadCal .a [0x2200, 0x2210, 0x2220, 0x2230, 0x2240, 0x2250, 0x2260, 0x2270, 0x2280, 0x2290, 0x22A0])[10]?
        = some (.regWrite 0x3A 0x22A0) ∧
      (updateKeyboardPrefs [60, 61, 62, 63, 64, 65, 66, 67])[7]? = some (.regWrite 0x0F 67) := by decide

/-! ### Surroundings (45_system.md R292, 60_exceptions.md R322) -/

theorem test_schedule :
    scheduleMs defaultConfig 19 .kcs false = [.tick, .progress] ∧
      scheduleMs defaultConfig 20 .kcs false = [.tick, .progress, .poll .kcs false] := by decide

theorem test_arbitration :
    arbitrate [.nop, .poll .ccs false, .noteOn 0 60 1, .progress, .clock, .tick]
      = [.tick, .noteOn 0 60 1, .clock, .progress, .poll .ccs false, .nop] := by decide

/-! ### The numeric pipeline (95_test_vectors.md T2, T3, 2.2, 2.3, 2.8) -/

/-- Codes with the reset settings, 2.2. -/
theorem test_codes :
    [0, 1, 11, 12, 59, 60, 72, 119, 120, 121, 127].map
        (fun n => midiToDacCode defaultConfig State.reset.cvA.set (BitVec.ofNat 7 n) 0 0)
      = [0, 34, 375, 409, 2013, 2047, 2457, 4060, 4095, 4095, 4095] := by decide

/-- Bends of note 60, 2.2. -/
theorem test_bends :
    [-8192, -4096, -1, 0, 1, 4096, 8191].map (fun b => midiToDacCode defaultConfig State.reset.cvA.set 60 b 0)
      = [1979, 2013, 2047, 2047, 2047, 2081, 2115] := by decide

/-- Vibrato of note 60 and the two clamps, 2.2. -/
theorem test_vibrato_codes :
    [-100, -50, -1, 0, 1, 50, 100].map (fun v => midiToDacCode defaultConfig State.reset.cvA.set 60 0 v)
        = [2013, 2030, 2047, 2047, 2047, 2064, 2081] ∧
      midiToDacCode defaultConfig State.reset.cvA.set 0 (-8192) 0 = 0 ∧
      midiToDacCode defaultConfig State.reset.cvA.set 119 8191 0 = 4095 := by decide

/-- T3. -/
theorem test_calibration :
    [0, 6, 12, 18, 119, 120, 125].map
        (calScale #v[0x2200, 0x2210, 0x2220, 0x2230, 0x2240, 0x2250, 0x2260, 0x2270, 0x2280, 0x2290, 0x22A0])
      = [0x2200, 0x2208, 0x2210, 0x2218, 0x229E, 0x22A0, 0x22A0] := by decide

/-- 2.3. -/
theorem test_triangle :
    [0, 1, 2, 3, 4, 5, 6].map (tri 100 7) = [0, 57, 85, 28, -29, -86, -58] ∧
      [0, 6, 12, 13, 25, 37, 38, 49].map (tri 127 50) = [0, 60, 121, 121, 0, -122, -122, -11] := by decide

/-- 2.3, phase 3 and the shapes. -/
theorem test_vibrato_samples :
    [0, 25, 50, 100, 150, 175, 199, 200].map
        (vibSample { State.reset.cvA.set with vibDepth := 50, vibPhaseQ := 3 } 0)
      = [-50, -25, 0, 50, 0, -25, -49, -50] ∧
    [0, 50, 125, 199].map (vibSample { State.reset.cvA.set with vibDepth := 50, vibShape := .rectified } 0)
      = [0, 50, 25, 1] ∧
    [0, 99, 125, 250].map (vibSample { State.reset.cvA.set with vibDepth := 50, vibDelay := 100 } 0)
      = [0, 0, 25, -50] ∧
    [124, 374, 498].map (vibSample { State.reset.cvA.set with vibDepth := 50, vibMode := .tempoSync } 1333)
      = [49, -50, -1] := by decide

/-- 2.8. -/
theorem test_scaling :
    [0, 1, 32, 64, 96, 126, 127].map (fun v => (lin defaultCcScale.vibRate (BitVec.ofNat 7 v)).toNat)
        = [2000, 1984, 1508, 1017, 525, 65, 50] ∧
      [5, 6, 10, 11, 63, 64, 126, 127].map (fun v => (lin defaultCcScale.pbRange (BitVec.ofNat 7 v)).toNat)
        = [0, 1, 1, 2, 11, 12, 23, 24] := by decide

/-- T4: three rows of the table. -/
theorem test_steps_between :
    [1, 2, 3, 4, 5, 6, 7, 8].map (stepsBetween 0) = [7, 7, 7, 7, 7, 7, 7, 7] ∧
      [1, 2, 3, 4, 5, 6, 7, 8].map (stepsBetween 3) = [5, 6, 7, 0, 1, 2, 3, 4] ∧
      [1, 2, 3, 4, 5, 6, 7, 8].map (stepsBetween 8) = [0, 1, 2, 3, 4, 5, 6, 7] := by decide

/-! ### The commands, one step each -/

/-- 45_system.md R290. -/
theorem test_nop : exec .nop gliding = .next gliding := rfl

/-- 45_system.md R291, the example: two ticks from the end, no event. -/
theorem test_tick_counts :
    (ran .tick sounding).ms = 1 ∧ (ran .tick sounding).cvA.out.trigCnt = 1 ∧ events .tick sounding = [] := by decide

/-- 45_system.md R291: both lines fall, CV-A first, and `ms` wraps. -/
theorem test_tick_ends_pulses :
    let high : Outputs := { State.reset.cvA.out with trigLine := true, trigCnt := 1 }
    let s :=
      { State.reset with
        ms := 0xFFFFFFFF, cvA := { State.reset.cvA with out := high }, cvB := { State.reset.cvB with out := high } }
    (ran .tick s).ms = 0 ∧ events .tick s = [.line .a false, .line .b false] := by decide

/-- 41_cv_pipeline.md R180, the example. -/
theorem test_progress_at_reset : events .progress State.reset = [.dac .a 0x1000, .dac .b 0x9000] := by decide

/-- 2.4, the rising glide at 50 ms: code 1842, still sliding. -/
theorem test_progress_glides :
    (ran .progress gliding).cvA.out.dacCode = 1842 ∧ (ran .progress gliding).cvA.rt.sliding = true := by decide

/-- 2.9, `POLL` from CCS at step 6. -/
theorem test_poll_transition :
    events (.poll .kcs false) (seqAt 6 3 true .ccs) = [.adv, .adv] ∧
      (ran (.poll .kcs false) (seqAt 6 3 true .ccs)).seq
        = { step := 0, cnt := 0, following := true, mode := .kcs } := by decide

/-- 2.9, the sync input. -/
theorem test_poll_sync :
    events (.poll .ccs true) (seqAt 4 2 true .ccs) = [] ∧
      (ran (.poll .ccs true) (seqAt 4 2 true .ccs)).seq
        = { step := 1, cnt := 2, following := true, mode := .ccs } := by decide

/-- 40_cv_channel.md R146, the example. -/
theorem test_all_notes_off_gate :
    let s := { sounding with cvA := { sounding.cvA with set := { sounding.cvA.set with trigMode := .gate } } }
    events (.allNotesOff .a) s = [.line .a false] ∧ (ran (.allNotesOff .a) s).cvA.rt.held = 0 ∧
      (ran (.allNotesOff .a) s).cvA.rt.histCnt = 0 ∧ (ran (.allNotesOff .a) s).cvA.rt.endNote = 60 := by decide

/-- 2.6: in Trig mode an empty CV-B emits nothing. -/
theorem test_all_notes_off_trig : events (.allNotesOff .b) sounding = [] := by decide

/-- 45_system.md R293, the examples. -/
theorem test_reg_write_legalises :
    (ran (.regWrite 0x20 0x000F) State.reset).cvA.set.trigMode = .none ∧
      (ran (.regWrite 0x20 0x000F) State.reset).cvA.set.retrigMode = .latest ∧
      (ran (.regWrite 0x02 0) State.reset).routing.clkDiv = 1 ∧
      (ran (.regWrite 0x02 25) State.reset).routing.clkDiv = 24 := by decide

/-- 45_system.md R293 and 30_encoding.md R112: a status register, and the channels. -/
theorem test_reg_write_channels :
    ran (.regWrite 0x80 0xFFFF) sounding = sounding ∧
      (ran (.regWrite 0x00 0x0210) State.reset).routing.chanB = 1 ∧
      (ran (.regWrite 0x00 0x0210) State.reset).routing.chanKbd = 2 := by decide

/-- 45_system.md R294, the examples at reset, and 2.7: `PB[0]` of -8192. -/
theorem test_reg_read_values :
    [0x20, 0x02, 0x30, 0x80, 0x7F].map (fun a => events (.regRead (BitVec.ofNat 8 a)) State.reset)
        = [[.rdata 0x0001], [.rdata 0x0004], [.rdata 0x2220], [.rdata 0x0000], [.rdata 0x0000]] ∧
      regRead (ran (.pbend 0 0x2000) sounding) 0x93 = 0xE000 := by decide

/-- 45_system.md R294: `MS_LO` after 70000 ticks. -/
theorem test_reg_read_latches :
    let s := { State.reset with ms := 0x00011170 }
    events (.regRead 0x82) s = [.rdata 0x1170] ∧ (ran (.regRead 0x82) s).msHiLatch = 1 := by decide

/-- T7, the first row. -/
theorem test_note_on :
    events (.noteOn 0 60 100) State.reset = [.dac .a 0x17FF, .vel .a 200, .line .a true] ∧
      ran (.noteOn 0 60 100) State.reset = sounding := by decide

/-- 2.7, keyboard and CV on one MIDI channel in KCS. -/
theorem test_note_on_keyboard :
    let s := { kcs with routing := { kcs.routing with chanKbd := 0 }, seq := { kcs.seq with step := 2 } }
    events (.noteOn 0 64 100) s = [.adv, .adv, .adv, .dac .a 0x1888, .vel .a 200, .line .a true] ∧
      (ran (.noteOn 0 64 100) s).seq.step = 5 ∧ (ran (.noteOn 0 64 100) s).advCount = 3 := by decide

/-- T5, the row Lowest: notes 40, 48, 44 held, 48 released. -/
theorem test_note_off_resounds :
    let s :=
      { sounding with
        cvA :=
          { sounding.cvA with
            rt := { sounding.cvA.rt with held := holdNote (holdNote (holdNote 0 40) 48) 44, endNote := 44 }
            set := { sounding.cvA.set with retrigMode := .lowest } } }
    events (.noteOff 0 48 0) s = [.dac .a 0x1555, .line .a true] ∧
      (ran (.noteOff 0 48 0) s).cvA.rt.endNote = 40 ∧ (ran (.noteOff 0 48 0) s).cvA.rt.histCnt = 1 := by decide

/-- 2.7, a polyphonic release in Gate mode emits the level twice. -/
theorem test_note_off_poly_gate :
    let s :=
      { sounding with
        routing := { sounding.routing with poly := true }
        cvA := { sounding.cvA with set := { sounding.cvA.set with trigMode := .gate } } }
    events (.noteOff 0 60 0) s = [.line .a false, .line .a false] ∧
      (ran (.noteOff 0 60 0) s).cvA.out.trigCnt = 0 := by decide

/-- 44_router.md R270, the examples. -/
theorem test_cc :
    (ran (.cc 0 65 127) State.reset).cvA.set.portaEn = true ∧
      (ran (.cc 0 65 127) State.reset).cvB.set.portaEn = false ∧
      (ran (.cc 2 21 112) State.reset).routing.clkDiv = 24 ∧
      ran (.cc 4 65 127) State.reset = State.reset := by decide

/-- 2.8: thresholds, and one MIDI channel for both voices. -/
theorem test_cc_both :
    let s := { State.reset with routing := { State.reset.routing with chanB := 0 } }
    (ran (.cc 0 77 50) s).cvA.set.vibDepth = 50 ∧ (ran (.cc 0 77 50) s).cvB.set.vibDepth = 50 ∧
      (ran (.cc 0 82 86) s).cvA.set.trigMode = .gate ∧ (ran (.cc 0 81 64) s).cvB.set.retrigMode = .lowest := by decide

/-- 44_router.md R272, the example. -/
theorem test_pbend : events (.pbend 0 0x2000) sounding = [.dac .a 0x17BB] := by decide

/-- 2.4: a bend in the middle of a glide. -/
theorem test_pbend_glide :
    events (.pbend 0 4096) gliding = [.dac .a 0x1754] ∧ (ran (.pbend 0 4096) gliding).cvA.rt.sliding = true := by
  decide

/-- 9 clocks of T9: step 8 wraps to 1. -/
theorem test_clock_wraps :
    let s := { seqAt 8 1 true .ccs with routing := { State.reset.routing with clkDiv := 24 } }
    events .clock s = [.adv] ∧ (ran .clock s).seq.step = 1 ∧ (ran .clock s).seq.cnt = 1 := by decide

/-- 70_reset_and_hazards.md R359: the division changed in mid-step. -/
theorem test_clock_division_changed :
    let s := { seqAt 1 5 true .ccs with routing := { State.reset.routing with clkDiv := 8 } }
    events .clock s = [] ∧ (ran .clock s).seq.cnt = 3 ∧ (ran .clock s).seq.step = 1 := by decide

/-- 43_sequencer.md R235, the example. -/
theorem test_start :
    events .start (seqAt 3 2 false .ccs) = [.adv, .adv, .adv, .adv, .adv] ∧
      (ran .start (seqAt 3 2 false .ccs)).seq = { step := 0, cnt := 0, following := true, mode := .ccs } := by decide

/-- 2.9: `START` in KCS does nothing. -/
theorem test_start_kcs : ran .start kcs = kcs := by decide

/-- 43_sequencer.md R237, the example. -/
theorem test_continue :
    (ran .cont (seqAt 5 3 false .ccs)).seq = { step := 5, cnt := 3, following := true, mode := .ccs } := by decide

/-- 43_sequencer.md R236: the example, and the corner case in KCS. -/
theorem test_stop :
    (ran .stop (seqAt 4 6 true .ccs)).seq = { step := 4, cnt := 6, following := false, mode := .ccs } ∧
      (ran .stop (seqAt 4 6 true .kcs)).seq.following = true := by decide

/-- A reserved word executes as `NOP` (2.1), and the port moves on. -/
theorem test_step_reserved :
    stepped { sounding with port := [0x05000000, 0x01000000] } = { sounding with port := [0x01000000] } := by decide

/-- The presented word of a row is executed by the next step. -/
theorem test_step_presented :
    stepped (State.reset.withFetchWord 32 0x903C6400) = sounding := by decide

/-! ### Inputs that meet the hypotheses of the obligations -/

/-- A channel in the middle of a falling glide, near every limit that the invariants name. -/
def busyChannel : Channel :=
  { State.reset.cvA with
    rt :=
      { State.reset.cvA.rt with
        held := holdNote 0 127
        histHead := 19
        histCnt := 20
        haveNote := true
        startNote := 127
        endNote := 0
        sliding := true
        slideDur := 1
        vib := BitVec.ofInt 16 (-4095)
        pb := 0x2000 }
    out := { trigLine := true, trigCnt := 1, dacCode := 0xFFF, velDuty := 255 } }

/-- A state at the limits of its ranges, with a command waiting. -/
def busy : State :=
  { State.reset with
    ms := 0xFFFFFFFF
    cvA := busyChannel
    cvB := busyChannel
    seq := { step := 8, cnt := 24, following := true, mode := .ccs }
    routing := { State.reset.routing with clkDiv := 24 }
    advCount := 0xFFFF
    port := [0xF8000000, 0x903C6400] }

theorem witness_OpcodeMapDecodesEachRow :
    [0x00000000, 0x01000000, 0x02000000, 0x03000003, 0x04000001, 0x10FFFFFF, 0x20FF0000, 0x8F7F7F00, 0x9F7F7F00,
        0xBF7F7F00, 0xEF003FFF, 0xF8000000, 0xFA000000, 0xFB000000, 0xFC000000].zipWith
      (fun w m => m.row.hits w) Mnemonic.all = List.replicate 15 true := by decide

theorem witness_ReservedWordExecutesAsNop :
    { sounding with port := [0xE0004000] }.port = 0xE0004000 :: [] ∧
      (∀ m ∈ Mnemonic.all, m.row.hits 0xE0004000 = false) ∧
      (BitVec.extractLsb' 28 4 (0xDFFFFFFF : Word)).toNat ∈ [0x3, 0x4, 0x5, 0x6, 0x7, 0xA, 0xC, 0xD] ∧
      5 ≤ (BitVec.extractLsb' 24 4 (0x05000000 : Word)).toNat ∧
      (BitVec.extractLsb' 24 4 (0xFF000000 : Word)).toNat ∉ [0x8, 0xA, 0xB, 0xC] ∧
      (0xE0004000 : Word) &&& 0xF0000000 = Mnemonic.pbend.row.value &&& 0xF0000000 ∧
      (0x04000002 : Word) &&& 0xFF000000 = Mnemonic.allNotesOff.row.value &&& 0xFF000000 ∧
      Mnemonic.allNotesOff.row.hits 0x04000002 = false := by decide

theorem witness_EncodeOfDecodeGivesTheWord : decode 0xEF003FFF = .ok (.pbend 15 0x3FFF) := by decide

theorem witness_StepRunsTheDecodedCommand :
    busy.port = 0xF8000000 :: [0x903C6400] ∧ decode 0xF8000000 = .ok .clock ∧ sounding.port = [] := by decide

theorem busyChannel_rt : busyChannel.rt.Ok := ⟨by decide, by decide, by decide, by decide, by decide, by decide⟩

theorem busyChannel_out : busyChannel.out.Ok defaultConfig := ⟨by decide, by decide⟩

theorem busy_inv : busy.Inv where
  rt c := by cases c <;> exact busyChannel_rt
  out c := by cases c <;> exact busyChannel_out
  seq := ⟨by decide, by decide⟩
  clkDivLow := by decide
  clkDivHigh := by decide

theorem witness_StepKeepsRegistersInRange :
    busy.Inv ∧ step busy = .next (ran .clock { busy with port := [0x903C6400] }) := ⟨busy_inv, rfl⟩

/-- `sounding` with the clock command waiting. -/
def soundingClock : State :=
  { sounding with seq := { sounding.seq with following := true }, port := [0xF8000000] }

theorem witness_StepKeepsOutputsMirroringTheTrace :
    soundingClock.Mirrors ∧ step soundingClock = .next (ran .clock { soundingClock with port := [] }) := by
  refine ⟨⟨?_, ?_, ?_, ?_, ?_⟩, rfl⟩
  · intro c f h
    cases c
    · have : lastDac .a soundingClock.trace = some 0x17FF := by decide
      rw [this] at h
      cases h
      decide
    · have : lastDac .b soundingClock.trace = none := by decide
      rw [this] at h
      cases h
  · intro c
    cases c
    · decide
    · decide
  · intro c
    cases c <;> decide
  · intro c
    cases c <;> decide
  · decide

/-- From step 8, and from step 0 with the external sequencer on step 8. -/
theorem witness_TrackedStepFollowsTheExternalSequencer :
    busy.Inv ∧ InStep busy.seq.step 8 ∧ ¬ Desyncs busy .clock ∧ exec .clock busy = .next (ran .clock busy) ∧
      InStep State.reset.seq.step 8 ∧ ¬ Desyncs State.reset .clock ∧ ¬ Desyncs busy .start := by
  refine ⟨busy_inv, by unfold InStep; decide, id, rfl, by unfold InStep; decide, id, ?_⟩
  unfold Desyncs
  decide

theorem witness_TriggerPulseLastsItsTicks :
    (busy.chan .b).out.trigLine = true ∧ (busy.chan .b).out.trigCnt ≠ 0 ∧ 0 < (busy.chan .b).out.trigCnt.toNat ∧
      (sounding.chan .a).out.trigCnt.toNat = 2 := by decide

/-- A settings register, another address, a reserved address and a status address. -/
theorem witness_RegWriteStoresOneRegister :
    regAt 0x5A = some (.setting .b (.cal 10)) ∧ (0x59 : RegAddr) ≠ 0x5A ∧ regAt 0x5B = none ∧
      0x80 ≤ (0x80 : RegAddr).toNat := by decide

theorem witness_AddressMapIsOneToOne : regAt 0x9E = some (.chanStatus .b .trigCnt) ∧ regAt 0x97 = none := by decide

theorem witness_CalibrationInterpolatesBetweenAnchors : 120 ≤ 120 ∧ 11 < 12 ∧ 12 * (9 : Fin 10).val + 11 = 119 := by
  decide

theorem witness_DacCodeClampsNotesAndIsMonotone :
    (120 : Data7).toNat = max defaultConfig.noteMin.toNat (min defaultConfig.noteMax.toNat (127 : Data7).toNat) ∧
      (-8192 : Int) ≤ 8191 ∧ (-4095 : Int) ≤ 4095 ∧ State.reset.cvA.set.cal = Vector.replicate 11 0x2220 := by decide

/-- Every quarter of the period 200, and the last point. -/
theorem witness_TriangleStaysWithinDepth :
    (0 : Int) ≤ 50 ∧ (1 : Int) ≤ 200 ∧ (0 : Int) ≤ 199 ∧ (199 : Int) < 200 ∧ (4 : Int) * 50 = 200 ∧
      (4 : Int) * 100 = 2 * 200 ∧ (4 : Int) * 150 = 3 * 200 := by decide

/-- A silent setting, one at the end of its delay, and the shapes. -/
theorem witness_VibratoIsTheShapedTriangle :
    State.reset.cvA.set.vibDepth = 0 ∧
      (let set := { State.reset.cvA.set with vibDepth := 50, vibDelay := 100, vibShape := .halfWave }
       set.vibMode ≠ .off ∧ set.vibDepth ≠ 0 ∧ 99 < set.vibDelay.toNat ∧ set.vibDelay.toNat ≤ 100 ∧
         set.vibPeriod.toNat ≠ 0 ∧ set.vibShape ≠ .bipolar) := by decide

/-- Not sliding; the start of a glide; its end. -/
theorem witness_GlideRunsFromStartCodeToEndCode :
    sounding.cvA.rt.sliding = false ∧ gliding.cvA.rt.sliding = true ∧ gliding.cvA.rt.slideDur ≠ 0 ∧
      ((10 : BitVec 32) - gliding.cvA.rt.slideT0).toNat = 0 ∧
      gliding.cvA.rt.slideDur.toNat ≤ ((110 : BitVec 32) - gliding.cvA.rt.slideT0).toNat := by decide

theorem witness_OutputReflectsEndNoteWhenNotSliding :
    (ran .progress sounding).cvA.rt.sliding = false ∧ sounding.routing.chanA = 0 ∧
      (ran (.pbend 0 0) sounding).cvA.rt.sliding = false ∧ sounding.routing.chanB = 1 ∧
      (ran (.pbend 1 0) sounding).cvB.rt.sliding = false := by decide

theorem witness_HistoryPutMakesTheNoteNewest : 18 < 19 ∧ busyChannel.rt.histHead.toNat = 19 := by decide

/-- A ring whose newest entry is held, and one with no valid entry. -/
theorem witness_LatestIsTheNewestHeldEntry :
    latest sounding.cvA.rt = some 60 ∧ latest State.reset.cvA.rt = none ∧ 19 < 20 := by decide

theorem witness_HighestAndLowestAreTheExtremeHeldNotes :
    highest busyChannel.rt = some 127 ∧ lowest busyChannel.rt = some 127 ∧ highest State.reset.cvA.rt = none ∧
      lowest { State.reset.cvA.rt with held := holdNote (holdNote 0 0) 127 } = some 0 := by decide

theorem witness_RepeatedNoteWritesTheSameCode :
    ((noteOn .a 60 100 true true State.reset).chan .a).rt.sliding = false := by decide

/-- CV-A free, CV-A taken, and another MIDI channel. -/
theorem witness_PolyphonicNoteGoesToOneVoice :
    let poly := fun s : State => { s with routing := { s.routing with poly := true } }
    (poly State.reset).routing.poly = true ∧ (0 : MidiChannel) = (poly State.reset).routing.chanA ∧
      latest (poly State.reset).cvA.rt = none ∧ latest (poly sounding).cvA.rt ≠ none ∧
      (poly sounding).cvA.set.trigMode ≠ .none ∧ (1 : MidiChannel) ≠ (poly sounding).routing.chanA := by decide

theorem witness_PolyphonicReleaseClearsTheLine :
    let s := { sounding with routing := { sounding.routing with poly := true } }
    s.routing.poly = true ∧ isHeld s.cvA.rt.held 60 = true ∧ dropNote s.cvA.rt.held 60 = 0 := by decide

/-- No action, a global action on the keyboard channel, and a channel action on CV-B's. -/
theorem witness_CcIsASequenceOfRegisterWrites :
    sounding.cfg.ccMap.lookup 7 = none ∧ sounding.cfg.ccMap.lookup 21 = some (.global .clkDiv) ∧
      (2 : MidiChannel) = sounding.routing.chanKbd ∧ sounding.cfg.ccMap.lookup 82 = some (.chan .trigMode) ∧
      (1 : MidiChannel) = sounding.routing.chanB := by decide

/-- The divisions at the ends of each clause. -/
theorem witness_PulsesPerStepIsFlooredDivision :
    1 ≤ (1 : BitVec 5).toNat ∧ (24 : BitVec 5).toNat ≤ 24 ∧ 13 ≤ (13 : BitVec 5).toNat ∧ (23 : BitVec 5).toNat ≤ 23 := by
  decide

/-- The first and the last step, different and equal. -/
theorem witness_StepsBetweenPlusOneLandsOnTarget :
    (1 ≤ 8 ∧ 8 ≤ 8 ∧ 1 ≤ 1 ∧ 1 ≤ 8) ∧ (8 : Nat) = 8 ∧ (8 : Nat) ≠ 1 := by decide

/-- A count of 0 and a full count. -/
theorem witness_ClocksAdvanceOnceEveryPps :
    (seqAt 0 0 true .ccs).seq.mode = .ccs ∧ (seqAt 0 0 true .ccs).seq.following = true ∧
      (seqAt 0 0 true .ccs).seq.cnt = 0 ∧
      (seqAt 8 6 true .ccs).seq.cnt.toNat = pulsesPerStep (seqAt 8 6 true .ccs).routing.clkDiv := by decide

/-- The first and the last entry, and a note of no entry. -/
theorem witness_KeyboardJumpTakesTheFirstMatch :
    kcs.routing.kbdMap[(0 : Fin 8)].toNat = (60 : Data7).toNat ∧
      kcs.routing.kbdMap[(7 : Fin 8)].toNat = (67 : Data7).toNat ∧
      (∀ j : Fin 8, j < 7 → kcs.routing.kbdMap[j].toNat ≠ (67 : Data7).toNat) ∧
      ∀ i : Fin 8, kcs.routing.kbdMap[i].toNat ≠ (68 : Data7).toNat := by decide

/-- A mode, a bend, a setting and a first-note flag that do change, and a first-note flag that is set. -/
theorem witness_RegistersHaveOnlyTheirWriters :
    exec (.poll .kcs false) sounding = .next (ran (.poll .kcs false) sounding) ∧
      (ran (.poll .kcs false) sounding).seq.mode ≠ sounding.seq.mode ∧
      exec (.pbend 0 5) sounding = .next (ran (.pbend 0 5) sounding) ∧
      (ran (.pbend 0 5) sounding).cvA.rt.pb ≠ sounding.cvA.rt.pb ∧
      (ran (.pbend 1 5) sounding).cvB.rt.pb ≠ sounding.cvB.rt.pb ∧
      exec (.cc 2 21 0) sounding = .next (ran (.cc 2 21 0) sounding) ∧
      (ran (.cc 2 21 0) sounding).routing ≠ sounding.routing ∧
      ((ran (.regWrite 0x41 9) sounding).chan .b).set ≠ (sounding.chan .b).set ∧
      (sounding.chan .a).rt.haveNote = true ∧
      exec (.noteOn 1 60 1) sounding = .next (ran (.noteOn 1 60 1) sounding) ∧
      ((ran (.noteOn 1 60 1) sounding).chan .b).rt.haveNote ≠ (sounding.chan .b).rt.haveNote :=
  ⟨rfl, by decide, rfl, by decide, by decide, rfl, by decide, by decide, by decide, rfl, by decide⟩

theorem witness_OnlyFourCommandsEmitPulses :
    exec (.noteOn 2 67 1) kcs = .next (ran (.noteOn 2 67 1) kcs) ∧ advPulses (events (.noteOn 2 67 1) kcs) = 8 :=
  ⟨rfl, by decide⟩

/-- A MIDI channel of no voice, and monophonic allocation. -/
theorem witness_EventsReachOnlyTheirChannels :
    Instr.noteOff 15 60 0 ∈ [Instr.noteOn 15 60 0, .noteOff 15 60 0, .cc 15 60 0, .pbend 15 0] ∧
      exec (.noteOff 15 60 0) sounding = .next sounding ∧ (15 : MidiChannel) ≠ sounding.routing.chanA ∧
      (15 : MidiChannel) ≠ sounding.routing.chanB ∧ (15 : MidiChannel) ≠ sounding.routing.chanKbd ∧
      sounding.routing.poly = false :=
  ⟨by decide, rfl, by decide, by decide, by decide, by decide⟩

end Sys2Proof.Tests
end

section
/-! What a command can do, said once: every command is a sequence of primitive moves of the state, and what every
move keeps, every step keeps. -/

namespace Sys2Proof.Machine

/-! ### The moves -/

/-- The range of `CLK_DIV` (10_state.md R58). -/
def Routing.Ok (g : Routing) : Prop := 1 ≤ g.clkDiv.toNat ∧ g.clkDiv.toNat ≤ 24

/-- A primitive move: one register, or one output register together with its event. A move of registers that have a
range carries the proof that it keeps the range. -/
inductive Move : State → State → Prop
  /-- A word leaves the port. -/
  | take (s : State) (rest : List Word) : Move s { s with port := rest }
  | time (s : State) (now : BitVec 32) : Move s { s with ms := now }
  | latch (s : State) (hi : Half) : Move s { s with msHiLatch := hi }
  | rt (s : State) (c : Chan) (f : Runtime → Runtime) (keeps : (s.chan c).rt.Ok → (f (s.chan c).rt).Ok) :
    Move s (s.updRt c f)
  | set (s : State) (c : Chan) (f : Settings → Settings) : Move s (s.updSet c f)
  | routing (s : State) (f : Routing → Routing) (keeps : s.routing.Ok → (f s.routing).Ok) : Move s (s.updRouting f)
  | seq (s : State) (f : Sequencer → Sequencer) (keeps : s.seq.Ok → (f s.seq).Ok) : Move s (s.updSeq f)
  | pulses (s : State) (n : Nat) : Move s (adv n s)
  | answer (s : State) (v : Half) : Move s (s.emit (.rdata v))
  | dac (s : State) (c : Chan) (code : Int) : Move s (dacWrite c code s)
  | vel (s : State) (c : Chan) (v : Data7) : Move s (velWrite c v s)
  | trig (s : State) (c : Chan) : Move s (emitTrig c s)
  | clear (s : State) (c : Chan) : Move s (lineClear c s)
  /-- A pending release timer counts down. -/
  | count (s : State) (c : Chan) (pending : (s.chan c).out.trigCnt ≠ 0) :
    Move s (s.updOut c fun o => { o with trigCnt := o.trigCnt - 1 })

/-- A sequence of moves. -/
abbrev Moves : State → State → Prop := Relation.ReflTransGen Move

/-- What every move keeps, a sequence of moves keeps. -/
theorem Moves.keep {P : State → Prop} (move : ∀ {s t}, Move s t → P s → P t) {s t : State} (h : Moves s t)
    (hs : P s) : P t := by
  induction h with
  | refl => exact hs
  | tail _ hlast ih => exact move hlast ih

theorem Move.one {s t : State} (h : Move s t) : Moves s t := .single h

theorem moves_ite {p : Prop} [Decidable p] {s t u : State} (ht : p → Moves s t) (hu : ¬p → Moves s u) :
    Moves s (if p then t else u) := by
  split
  · exact ht ‹_›
  · exact hu ‹_›

/-! ### Ranges of what the commands store -/

/-- A triangle value lies within the depth wherever the phase is inside the period (41_cv_pipeline.md R172). -/
theorem tri_within {depth period p : Int} (hd : 0 ≤ depth) (hp : 0 ≤ p) (hlt : p < period) :
    -depth ≤ tri depth period p ∧ tri depth period p ≤ depth := by
  have hpos : 0 < period := by omega
  have within : ∀ {x : Int}, -period ≤ x → x ≤ period →
      -depth ≤ depth * x / period ∧ depth * x / period ≤ depth := fun hlow hhigh =>
    ⟨(Int.le_ediv_iff_mul_le hpos).2 (by nlinarith), Int.ediv_le_of_le_mul hpos (by nlinarith)⟩
  unfold tri
  split
  · exact within (by omega) (by omega)
  · split
    · exact within (by omega) (by omega)
    · exact within (by omega) (by omega)

/-- A shape keeps a value within a symmetric bound (41_cv_pipeline.md R170). -/
theorem shapeVib_within {depth v : Int} (shape : VibShape) (hlow : -depth ≤ v) (hhigh : v ≤ depth) :
    -depth ≤ shapeVib shape v ∧ shapeVib shape v ≤ depth := by
  cases shape with
  | bipolar => exact ⟨hlow, hhigh⟩
  | halfWave => simp only [shapeVib]; omega
  | rectified =>
    have := abs_nonneg v
    exact ⟨by simp only [shapeVib]; omega, abs_le.2 ⟨hlow, hhigh⟩⟩

/-- A vibrato sample lies within the depth. -/
theorem vibSample_within (set : Settings) (tempoAvg : Half) (el : Nat) :
    -(set.vibDepth.toNat : Int) ≤ vibSample set tempoAvg el ∧ vibSample set tempoAvg el ≤ set.vibDepth.toNat := by
  have hzero : -(set.vibDepth.toNat : Int) ≤ 0 ∧ (0 : Int) ≤ set.vibDepth.toNat := by omega
  unfold vibSample
  split
  · exact hzero
  split
  · exact hzero
  split
  · exact hzero
  next hperiod =>
    have hphase := Nat.mod_lt (el - set.vibDelay.toNat + set.vibPhaseQ.toNat * lfoPeriod set tempoAvg / 4)
      (Nat.pos_of_ne_zero hperiod)
    obtain ⟨hlow, hhigh⟩ := tri_within (depth := set.vibDepth.toNat) (period := lfoPeriod set tempoAvg)
      (p := lfoPhase set (lfoPeriod set tempoAvg) (el - set.vibDelay.toNat)) (by omega) (by omega)
      (Int.ofNat_lt.2 hphase)
    exact shapeVib_within set.vibShape hlow hhigh

theorem Runtime.Ok.progressRt {r : Runtime} (h : r.Ok) (ms : BitVec 32) (tempoAvg : Half) (set : Settings) :
    (progressRt ms tempoAvg set r).Ok := by
  obtain ⟨hlow, hhigh⟩ := vibSample_within set tempoAvg (elapsed ms r.tOn)
  have hdepth := set.vibDepth.isLt
  have hvib : (Machine.progressRt ms tempoAvg set r).vib.toInt = vibSample set tempoAvg (elapsed ms r.tOn) := by
    simp only [Machine.progressRt, BitVec.toInt_ofInt]
    exact Int.bmod_eq_of_le (by omega) (by omega)
  exact
    { head := h.head
      count := h.count
      glide := fun hsl => h.glide (by simp_all [Machine.progressRt])
      glideNote := fun hsl => h.glideNote (by simp_all [Machine.progressRt])
      vibLow := by omega
      vibHigh := by omega }

theorem Runtime.Ok.histPut {r : Runtime} (h : r.Ok) (note : Data7) : (histPut note r).Ok where
  head := by simp only [Machine.histPut, BitVec.toNat_ofNat]; omega
  count := by simp only [Machine.histPut, BitVec.toNat_ofNat]; omega
  glide := h.glide
  glideNote := h.glideNote
  vibLow := h.vibLow
  vibHigh := h.vibHigh

/-- The ranges speak of the ring, the glide and the vibrato only. -/
theorem Runtime.Ok.noteOnRt {r : Runtime} (h : r.Ok) (ms : BitVec 32) (note : Data7) (addToHistory : Bool) :
    (noteOnRt ms note addToHistory r).Ok := by
  have hheld : { r with held := holdNote r.held note }.Ok :=
    ⟨h.head, h.count, h.glide, h.glideNote, h.vibLow, h.vibHigh⟩
  have hput : (if addToHistory then Machine.histPut note { r with held := holdNote r.held note }
      else { r with held := holdNote r.held note }).Ok := by
    split
    · exact hheld.histPut note
    · exact hheld
  exact ⟨hput.head, hput.count, hput.glide, fun _ => rfl, by simp [Machine.noteOnRt], by simp [Machine.noteOnRt]⟩

theorem Runtime.Ok.stop {r : Runtime} (h : r.Ok) : { r with sliding := false }.Ok :=
  ⟨h.head, h.count, by simp, by simp, h.vibLow, h.vibHigh⟩

/-- The registers that `ALL_NOTES_OFF` leaves are in range, whatever they were (40_cv_channel.md R145). -/
theorem Runtime.Ok.silent (r : Runtime) :
    { r with held := 0, histHead := 0, histCnt := 0, sliding := false, vib := 0 }.Ok :=
  ⟨by simp, by simp, by simp, by simp, by simp, by simp⟩

theorem noteOnRt_haveNote (ms : BitVec 32) (note : Data7) (addToHistory : Bool) (r : Runtime) :
    (noteOnRt ms note addToHistory r).haveNote = true := rfl

theorem velDutyOf_le (cfg : Config) (vel : Data7) : velDutyOf cfg vel ≤ cfg.velMax := by
  have hvel : vel.toNat ≤ 127 := by omega
  have hmax := cfg.velMax.isLt
  have hle : vel.toNat * cfg.velMax.toNat / 127 ≤ cfg.velMax.toNat :=
    Nat.div_le_of_le_mul (Nat.mul_le_mul_right _ hvel)
  rw [BitVec.le_def, velDutyOf, BitVec.toNat_ofNat, Nat.mod_eq_of_lt (by omega)]
  exact hle

theorem pulsesPerStep_le (clkDiv : BitVec 5) : pulsesPerStep clkDiv ≤ 24 := by
  have := Nat.div_le_self 24 clkDiv.toNat
  simp only [pulsesPerStep]
  omega

theorem pulsesPerStep_pos (clkDiv : BitVec 5) : 0 < pulsesPerStep clkDiv := by
  simp only [pulsesPerStep]
  omega

theorem nextCnt_le (clkDiv cnt : BitVec 5) : (nextCnt clkDiv cnt).toNat ≤ 24 := by
  have := Nat.mod_lt cnt.toNat (pulsesPerStep_pos clkDiv)
  have := pulsesPerStep_le clkDiv
  rw [nextCnt, BitVec.toNat_ofNat]
  omega

theorem nextStep_le (step : BitVec 4) : (nextStep step).toNat ≤ 8 := by
  rw [nextStep, BitVec.toNat_ofNat]
  omega

theorem legalClkDiv_range (d : BitVec 5) : 1 ≤ (legalClkDiv d).toNat ∧ (legalClkDiv d).toNat ≤ 24 := by
  unfold legalClkDiv
  split
  · decide
  split
  · decide
  · bv_omega

theorem divTable_range : ∀ k : Fin 8, 1 ≤ divTable[k].toNat ∧ divTable[k].toNat ≤ 24 := by decide

theorem Routing.Ok.globalAction {g : Routing} (h : g.Ok) (sc : CcScale) (a : GlobalAction) (val : Data7) :
    (globalAction sc a val g).Ok := by
  cases a with
  | advWidth => exact h
  | clkDiv => exact divTable_range ⟨val.toNat / 16, by have := val.isLt; omega⟩

/-! ### The channel operations as moves -/

section
variable (c : Chan) (s : State)

theorem writeCurrent_moves : Moves s (writeCurrent c s) := (Move.dac s c _).one

theorem slideProgress_moves : Moves s (slideProgress c s) :=
  (Move.rt s c _ fun h => h.progressRt _ _ _).one.trans (writeCurrent_moves c _)

theorem pitchBend_moves (amount : BitVec 14) : Moves s (pitchBend c amount s) :=
  (Move.rt s c _ fun h => ⟨h.head, h.count, h.glide, h.glideNote, h.vibLow, h.vibHigh⟩).one.trans
    (writeCurrent_moves c _)

/-- A glide begins on a channel that has a note, with the positive duration that was asked for. -/
theorem beginNote_moves (start note : Data7) (hnote : (s.chan c).rt.haveNote = true) :
    Moves s (beginNote c start note s) := by
  unfold beginNote
  refine moves_ite (fun _ => ?_) fun hglide => ?_
  · exact (Move.rt s c _ fun h => h.stop).one.trans (Move.dac _ c _).one
  · exact (Move.rt s c _ fun h =>
      ⟨h.head, h.count, fun _ => not_or.1 hglide |>.1, fun _ => hnote, h.vibLow, h.vibHigh⟩).one

theorem noteOn_moves (note vel : Data7) (sendVelocity addToHistory : Bool) :
    Moves s (noteOn c note vel sendVelocity addToHistory s) := by
  have hrt := (Move.rt s c (noteOnRt s.ms note addToHistory) fun h => h.noteOnRt _ _ _).one
  have hbegin := hrt.trans (beginNote_moves c _
    ((s.updRt c (noteOnRt s.ms note addToHistory)).chan c).rt.startNote note (by simp [noteOnRt_haveNote]))
  exact (hbegin.trans (moves_ite (fun _ => (Move.vel _ c vel).one) fun _ => .refl)).trans (Move.trig _ c).one

theorem resound_moves (vel : Data7) : Moves s (resound c vel s) := by
  unfold resound
  split
  · exact noteOn_moves c s _ vel false false
  · exact .refl

theorem noteOff_moves (note vel : Data7) : Moves s (noteOff c note vel s) :=
  ((Move.rt s c _ fun h => ⟨h.head, h.count, h.glide, h.glideNote, h.vibLow, h.vibHigh⟩).one.trans
    (resound_moves c _ vel)).trans (moves_ite (fun _ => (Move.clear _ c).one) fun _ => .refl)

theorem allNotesOff_moves : Moves s (allNotesOff c s) :=
  (Move.rt s c _ fun _ => Runtime.Ok.silent _).one.trans
    (moves_ite (fun _ => (Move.clear _ c).one) fun _ => .refl)

theorem polyRelease_moves (note vel : Data7) : Moves s (polyRelease c note vel s) :=
  (noteOff_moves c s note vel).trans (moves_ite (fun _ => (Move.clear _ c).one) fun _ => .refl)

theorem tickTimer_moves : Moves s (tickTimer c s) :=
  moves_ite (fun _ => .refl) fun hpending =>
    moves_ite (fun _ => (Move.clear s c).one) fun _ => (Move.count s c hpending).one

theorem controlChange_moves (num val : Data7) : Moves s (controlChange c num val s) := by
  unfold controlChange
  split
  · exact (Move.set s c _).one
  · exact .refl
  · exact .refl

end

/-! ### The commands as moves -/

section
variable {s t : State}

theorem rewind_moves (s : State) : Moves s (rewind s) := (Move.pulses s _).one

theorem routed_moves (p : Bool) {f : State → State} (h : Moves s (f s)) : Moves s (routed p f s) :=
  moves_ite (fun _ => h) fun _ => .refl

theorem clockPulse_moves (s : State) : Moves s (clockPulse s) :=
  (Move.seq s _ fun h => ⟨h.step, nextCnt_le _ _⟩).one.trans
    (moves_ite (fun _ => (Move.seq _ _ fun h => ⟨nextStep_le _, h.cnt⟩).one.trans (Move.pulses _ 1).one)
      fun _ => .refl)

theorem modeTransition_moves (sw : Mode) (s : State) : Moves s (modeTransition sw s) :=
  ((Move.seq s (fun q => { q with mode := sw, cnt := 0 }) fun h => ⟨h.step, by simp⟩).one.trans
    (rewind_moves _)).trans (Move.seq _ (fun q => { q with step := 0 }) fun h => ⟨by simp, h.cnt⟩).one

theorem kbdJump_moves (note : Data7) (s : State) : Moves s (kbdJump note s) := by
  unfold kbdJump
  split
  · exact .refl
  next i hmatch =>
    have hi : i < 8 := by simpa using (kbdMatch_bound hmatch).2
    exact (Move.pulses s _).one.trans
      (Move.seq _ _ fun h => ⟨by rw [BitVec.toNat_ofNat]; omega, h.cnt⟩).one

theorem regStore_moves (r : Reg) (v : Half) (s : State) : Moves s (regStore r v s) := by
  cases r with
  | chans | alloc | advWidth | tempoAvg | kbdMap => rw [regStore]; exact (Move.routing s _ id).one
  | clkDiv => rw [regStore]; exact (Move.routing s _ fun _ => by exact legalClkDiv_range _).one
  | setting c r => exact (Move.set s c _).one
  | status | seqPos | msLo | msHi | advCount | chanStatus => exact .refl

theorem regWrite_moves (a : RegAddr) (v : Half) (s : State) : Moves s (regWrite a v s) := by
  unfold regWrite
  split
  · exact regStore_moves _ v s
  · exact .refl

theorem polyNoteOn_moves (note vel : Data7) (s : State) : Moves s (polyNoteOn note vel s) :=
  moves_ite (fun _ => noteOn_moves .a s note vel true true) fun _ =>
    (noteOn_moves .b s note vel _ true).trans (Move.trig _ .a).one

theorem monoNoteOn_moves (ch : MidiChannel) (note vel : Data7) (s : State) : Moves s (monoNoteOn ch note vel s) :=
  (routed_moves _ (noteOn_moves .a s note vel true true)).trans (routed_moves _ (noteOn_moves .b _ note vel _ true))

theorem polyNoteOff_moves (note vel : Data7) (s : State) : Moves s (polyNoteOff note vel s) :=
  moves_ite (fun _ => polyRelease_moves .a s note vel) fun _ =>
    moves_ite (fun _ => polyRelease_moves .b s note vel) fun _ => .refl

/-- Every command is a sequence of moves. -/
theorem exec_moves {i : Instr} (h : exec i s = .next t) : Moves s t := by
  cases i with
  | nop => cases h; exact .refl
  | tick =>
    cases h
    exact ((Move.time s _).one.trans (tickTimer_moves .a _)).trans (tickTimer_moves .b _)
  | progress => cases h; exact (slideProgress_moves .a s).trans (slideProgress_moves .b _)
  | poll sw sync =>
    cases h
    exact (moves_ite (fun _ => .refl) fun _ => modeTransition_moves sw s).trans
      (moves_ite (fun _ => (Move.seq _ _ fun h => ⟨by simp, h.cnt⟩).one) fun _ => .refl)
  | allNotesOff c => cases h; exact allNotesOff_moves c s
  | regWrite a v => cases h; exact regWrite_moves a v s
  | regRead a =>
    cases h
    exact (moves_ite (fun _ => (Move.latch s _).one) fun _ => .refl).trans (Move.answer _ _).one
  | noteOff ch note vel =>
    cases h
    exact moves_ite (fun _ => routed_moves _ (polyNoteOff_moves note vel s)) fun _ =>
      (routed_moves _ (noteOff_moves .a s note vel)).trans (routed_moves _ (noteOff_moves .b _ note vel))
  | noteOn ch note vel =>
    cases h
    exact (routed_moves _ (kbdJump_moves note s)).trans
      (moves_ite (fun _ => routed_moves _ (polyNoteOn_moves note vel _)) fun _ => monoNoteOn_moves ch note vel _)
  | cc ch num val =>
    cases h
    split
    · exact .refl
    · exact routed_moves _ (Move.routing s _ fun h => h.globalAction _ _ _).one
    · exact (routed_moves _ (controlChange_moves .a s num val)).trans
        (routed_moves _ (controlChange_moves .b _ num val))
  | pbend ch amount =>
    cases h
    exact (routed_moves _ (pitchBend_moves .a s amount)).trans (routed_moves _ (pitchBend_moves .b _ amount))
  | clock =>
    simp only [exec, execClock] at h
    split at h <;> cases h
    · exact clockPulse_moves s
    · exact .refl
  | start =>
    simp only [exec, execStart] at h
    split at h <;> cases h
    · exact (rewind_moves s).trans (Move.seq _ _ fun _ => ⟨by simp, by simp⟩).one
    · exact .refl
  | cont =>
    simp only [exec, execCont] at h
    split at h <;> cases h
    · exact (Move.seq s _ fun h => ⟨h.step, h.cnt⟩).one
    · exact .refl
  | stop =>
    simp only [exec, execStop] at h
    split at h <;> cases h
    · exact (Move.seq s _ fun h => ⟨h.step, h.cnt⟩).one
    · exact .refl

/-- So is every step, which takes a word from the port first. -/
theorem step_moves (h : step s = .next t) : Moves s t := by
  unfold step at h
  split at h
  · cases h; exact .refl
  next w s' hfetch =>
    obtain ⟨-, hs'⟩ := (fetch_eq_some_iff s w s').1 hfetch
    have htake : Moves s s' := hs' ▸ (Move.take s s'.port).one
    split at h
    · exact htake.trans (exec_moves h)
    · cases h; exact htake

end

end Sys2Proof.Machine
end

section
/-! The ranges of the registers (10_state.md R24 to R58) along every step, from reset on. -/

namespace Sys2Proof.Machine

/-- A change of one channel's registers keeps the ranges when the new registers are in theirs. -/
theorem ChanStep.inv {c : Chan} {s t : State} (h : ChanStep c s t) (hs : s.Inv) (hrt : (t.chan c).rt.Ok)
    (hout : (t.chan c).out.Ok s.cfg) : t.Inv where
  rt d := by
    by_cases hd : d = c
    · exact hd ▸ hrt
    · exact h.other d hd ▸ hs.rt d
  out d := by
    rw [h.cfg]
    by_cases hd : d = c
    · exact hd ▸ hout
    · exact h.other d hd ▸ hs.out d
  seq := h.seq ▸ hs.seq
  clkDivLow := h.routing ▸ hs.clkDivLow
  clkDivHigh := h.routing ▸ hs.clkDivHigh

/-- `emit_trig` starts a release timer only on a line that it raises (40_cv_channel.md R142). -/
theorem emitTrig_out_ok {c : Chan} {s : State} (h : (s.chan c).out.Ok s.cfg) :
    ((emitTrig c s).chan c).out.Ok s.cfg := by
  rw [emitTrig_chan_self]
  cases (s.chan c).set.trigMode with
  | none => exact h
  | trig => exact ⟨fun _ => rfl, h.duty⟩
  | gate => exact ⟨fun _ => rfl, h.duty⟩

theorem Move.inv {s t : State} (h : Move s t) (hs : s.Inv) : t.Inv := by
  cases h with
  | take rest => exact ⟨hs.rt, hs.out, hs.seq, hs.clkDivLow, hs.clkDivHigh⟩
  | time now => exact ⟨hs.rt, hs.out, hs.seq, hs.clkDivLow, hs.clkDivHigh⟩
  | latch hi => exact ⟨hs.rt, hs.out, hs.seq, hs.clkDivLow, hs.clkDivHigh⟩
  | rt c f keeps =>
    exact (updRt_step c f s).inv hs (by simpa using keeps (hs.rt c)) (by simpa using hs.out c)
  | set c f =>
    have hch : ∀ d, ((s.updSet c f).chan d).rt = (s.chan d).rt ∧ ((s.updSet c f).chan d).out = (s.chan d).out := by
      intro d
      rw [updSet_chan]
      split <;> simp_all
    exact
      { rt := fun d => (hch d).1 ▸ hs.rt d
        out := fun d => by simpa [(hch d).2] using hs.out d
        seq := by simpa using hs.seq
        clkDivLow := by simpa using hs.clkDivLow
        clkDivHigh := by simpa using hs.clkDivHigh }
  | routing f keeps =>
    obtain ⟨hlow, hhigh⟩ := keeps ⟨hs.clkDivLow, hs.clkDivHigh⟩
    exact ⟨by simpa using hs.rt, by simpa using hs.out, hs.seq, hlow, hhigh⟩
  | seq f keeps =>
    exact ⟨by simpa using hs.rt, by simpa using hs.out, keeps hs.seq, hs.clkDivLow, hs.clkDivHigh⟩
  | pulses n =>
    rw [adv_eq]
    exact ⟨hs.rt, hs.out, hs.seq, hs.clkDivLow, hs.clkDivHigh⟩
  | answer v => exact ⟨by simpa using hs.rt, by simpa using hs.out, hs.seq, hs.clkDivLow, hs.clkDivHigh⟩
  | dac c code =>
    have hout := hs.out c
    exact (dacWrite_step c code s).inv hs (by simpa using hs.rt c) (by simpa using ⟨hout.timer, hout.duty⟩)
  | vel c v =>
    have hduty := velDutyOf_le s.cfg v
    exact (velWrite_step c v s).inv hs (by simpa using hs.rt c) (by simpa using ⟨(hs.out c).timer, hduty⟩)
  | trig c =>
    exact (emitTrig_step c s).inv hs (by simpa [emitTrig_chan_self] using hs.rt c) (emitTrig_out_ok (hs.out c))
  | clear c =>
    exact (lineClear_step c s).inv hs (by simpa using hs.rt c) (by simpa using ⟨by simp, (hs.out c).duty⟩)
  | count c pending =>
    have hline := (hs.out c).timer pending
    exact (updOut_step c _ s).inv hs (by simpa using hs.rt c) (by simpa using ⟨fun _ => hline, (hs.out c).duty⟩)

/-- Settles O11: no move leaves the ranges, and a step is a sequence of moves. -/
theorem stepKeepsRegistersInRange : Obligations.StepKeepsRegistersInRange :=
  fun _ _ hs h => (step_moves h).keep Move.inv hs

theorem launch_chan (cfg : Config) (mode : Mode) (c : Chan) : (State.launch cfg mode).chan c = Channel.reset cfg := by
  cases c <;> rfl

theorem Runtime.reset_ok : Runtime.reset.Ok := ⟨by decide, by decide, nofun, nofun, by decide, by decide⟩

theorem Routing.reset_ok : Routing.reset.Ok := ⟨by decide, by decide⟩

theorem launch_inv (cfg : Config) (mode : Mode) : (State.launch cfg mode).Inv where
  rt c := by
    rw [launch_chan]
    exact Runtime.reset_ok
  out c := by
    rw [launch_chan]
    exact ⟨nofun, Nat.zero_le _⟩
  seq := ⟨Nat.zero_le _, Nat.zero_le _⟩
  clkDivLow := Routing.reset_ok.1
  clkDivHigh := Routing.reset_ok.2

end Sys2Proof.Machine
end

section
/-! The output registers as the reading of the trace (10_state.md R34 to R37, R62) along every step, from reset
on. -/

namespace Sys2Proof.Machine

/-! ### The last event of a trace -/

theorem lastDac_append (c : Chan) (es fs : List OutEvent) :
    lastDac c (es ++ fs) = (lastDac c fs).or (lastDac c es) := by
  induction es with
  | nil => simp [lastDac]
  | cons e es ih =>
    cases e with
    | dac d f => by_cases h : d = c <;> cases hl : lastDac c fs <;> simp [lastDac, h, ih, hl]
    | line | vel | adv | rdata => simpa [lastDac] using ih

theorem lastLine_append (c : Chan) (es fs : List OutEvent) :
    lastLine c (es ++ fs) = (lastLine c fs).or (lastLine c es) := by
  induction es with
  | nil => simp [lastLine]
  | cons e es ih =>
    cases e with
    | line d l => by_cases h : d = c <;> cases hl : lastLine c fs <;> simp [lastLine, h, ih, hl]
    | dac | vel | adv | rdata => simpa [lastLine] using ih

theorem lastVel_append (c : Chan) (es fs : List OutEvent) :
    lastVel c (es ++ fs) = (lastVel c fs).or (lastVel c es) := by
  induction es with
  | nil => simp [lastVel]
  | cons e es ih =>
    cases e with
    | vel d v => by_cases h : d = c <;> cases hl : lastVel c fs <;> simp [lastVel, h, ih, hl]
    | dac | line | adv | rdata => simpa [lastVel] using ih

@[simp] theorem advPulses_append (es fs : List OutEvent) : advPulses (es ++ fs) = advPulses es + advPulses fs :=
  List.count_append

/-- The channel of an output event; a pulse and a register value have none (10_state.md R62). -/
def OutEvent.chan? : OutEvent → Option Chan
  | .dac c _ => some c
  | .line c _ => some c
  | .vel c _ => some c
  | .adv => none
  | .rdata _ => none

/-- Events of other channels, pulses and register values say nothing of a channel's outputs. -/
theorem last_eq_none_of_silent {c : Chan} {es : List OutEvent} (h : ∀ e ∈ es, e.chan? ≠ some c) :
    lastDac c es = none ∧ lastLine c es = none ∧ lastVel c es = none := by
  induction es with
  | nil => exact ⟨rfl, rfl, rfl⟩
  | cons e es ih =>
    obtain ⟨hd, hl, hv⟩ := ih fun e he => h e (List.mem_cons_of_mem _ he)
    have he := h e List.mem_cons_self
    cases e with
    | dac | line | vel => simp_all [OutEvent.chan?, lastDac, lastLine, lastVel]
    | adv | rdata => exact ⟨hd, hl, hv⟩

/-! ### One channel's agreement with the trace -/

/-- The output registers of channel `c` are those of its last events in a trace. -/
structure Outputs.Mirrors (cfg : Config) (c : Chan) (o : Outputs) (es : List OutEvent) : Prop where
  dac : ∀ f, lastDac c es = some f → f = dacFrame cfg c o.dacCode
  noDac : lastDac c es = none → o.dacCode = 0
  line : o.trigLine = (lastLine c es).getD false
  vel : o.velDuty = (lastVel c es).getD 0

theorem State.mirrors_iff (s : State) :
    s.Mirrors ↔
      (∀ c, (s.chan c).out.Mirrors s.cfg c s.trace) ∧ s.advCount = BitVec.ofNat 16 (advPulses s.trace) :=
  ⟨fun h => ⟨fun c => ⟨h.dac c, h.noDac c, h.line c, h.vel c⟩, h.adv⟩, fun ⟨h, hadv⟩ =>
    ⟨fun c => (h c).dac, fun c => (h c).noDac, fun c => (h c).line, fun c => (h c).vel, hadv⟩⟩

section
variable {cfg : Config} {c : Chan} {o : Outputs} {es : List OutEvent}

theorem Outputs.Mirrors.silent (h : o.Mirrors cfg c es) {fs : List OutEvent} (hfs : ∀ e ∈ fs, e.chan? ≠ some c) :
    o.Mirrors cfg c (es ++ fs) := by
  obtain ⟨hd, hl, hv⟩ := last_eq_none_of_silent hfs
  exact ⟨by simpa [lastDac_append, hd] using h.dac, by simpa [lastDac_append, hd] using h.noDac,
    by simpa [lastLine_append, hl] using h.line, by simpa [lastVel_append, hv] using h.vel⟩

theorem Outputs.Mirrors.dacEvent (h : o.Mirrors cfg c es) (code : BitVec 12) :
    { o with dacCode := code }.Mirrors cfg c (es ++ [OutEvent.dac c (dacFrame cfg c code)]) where
  dac := by simp [lastDac_append, lastDac]
  noDac := by simp [lastDac_append, lastDac]
  line := by simpa [lastLine_append, lastLine] using h.line
  vel := by simpa [lastVel_append, lastVel] using h.vel

theorem Outputs.Mirrors.lineEvent (h : o.Mirrors cfg c es) (level : Bool) (cnt : Half) :
    { o with trigLine := level, trigCnt := cnt }.Mirrors cfg c (es ++ [OutEvent.line c level]) where
  dac := by simpa [lastDac_append, lastDac] using h.dac
  noDac := by simpa [lastDac_append, lastDac] using h.noDac
  line := by simp [lastLine_append, lastLine]
  vel := by simpa [lastVel_append, lastVel] using h.vel

theorem Outputs.Mirrors.velEvent (h : o.Mirrors cfg c es) (duty : Half) :
    { o with velDuty := duty }.Mirrors cfg c (es ++ [OutEvent.vel c duty]) where
  dac := by simpa [lastDac_append, lastDac] using h.dac
  noDac := by simpa [lastDac_append, lastDac] using h.noDac
  line := by simpa [lastLine_append, lastLine] using h.line
  vel := by simp [lastVel_append, lastVel]

/-- The release timer is no output: no event tells it. -/
theorem Outputs.Mirrors.timer (h : o.Mirrors cfg c es) (cnt : Half) : { o with trigCnt := cnt }.Mirrors cfg c es :=
  ⟨h.dac, h.noDac, h.line, h.vel⟩

end

/-! ### Every move keeps the agreement -/

/-- What writes no output register and emits nothing keeps the agreement. -/
theorem State.Mirrors.of_eq {s t : State} (hs : s.Mirrors) (hcfg : t.cfg = s.cfg)
    (hout : ∀ c, (t.chan c).out = (s.chan c).out) (hadv : t.advCount = s.advCount) (htrace : t.trace = s.trace) :
    t.Mirrors := by
  rw [State.mirrors_iff] at hs ⊢
  simpa [hcfg, hout, hadv, htrace] using hs

/-- What an operation of channel `c` emits for `c` says nothing of the other channel. -/
theorem ChanStep.mirrors {c : Chan} {s t : State} {es : List OutEvent} (h : ChanStep c s t) (hs : s.Mirrors)
    (htrace : t.trace = s.trace ++ es) (hes : ∀ e ∈ es, e.chan? = some c)
    (hout : (t.chan c).out.Mirrors s.cfg c (s.trace ++ es)) : t.Mirrors := by
  rw [State.mirrors_iff] at hs ⊢
  obtain ⟨hchan, hadv⟩ := hs
  have hno : advPulses es = 0 := List.count_eq_zero.2 fun hmem => by simpa [OutEvent.chan?] using hes _ hmem
  refine ⟨fun d => ?_, by simpa [h.advCount, htrace, hno] using hadv⟩
  rw [h.cfg, htrace]
  by_cases hd : d = c
  · exact hd ▸ hout
  · rw [h.other d hd]
    exact (hchan d).silent fun e he => by simpa [hes e he] using Ne.symm hd

theorem Move.mirrors {s t : State} (h : Move s t) (hs : s.Mirrors) : t.Mirrors := by
  have hchan := (State.mirrors_iff s).1 hs |>.1
  cases h with
  | take rest => exact hs.of_eq rfl (fun _ => rfl) rfl rfl
  | time now => exact hs.of_eq rfl (fun _ => rfl) rfl rfl
  | latch hi => exact hs.of_eq rfl (fun _ => rfl) rfl rfl
  | rt c f =>
    refine hs.of_eq (by simp) (fun d => ?_) (by simp) (by simp)
    rw [updRt_chan]
    split <;> simp_all
  | set c f =>
    refine hs.of_eq (by simp) (fun d => ?_) (by simp) (by simp)
    rw [updSet_chan]
    split <;> simp_all
  | routing f => exact hs.of_eq rfl (by simp) rfl rfl
  | seq f => exact hs.of_eq rfl (by simp) rfl rfl
  | pulses n =>
    refine (State.mirrors_iff _).2 ⟨fun c => ?_, ?_⟩
    · rw [adv_cfg, adv_chan, adv_trace]
      exact (hchan c).silent fun e he => by simp [List.eq_of_mem_replicate he, OutEvent.chan?]
    · rw [adv_advCount, adv_trace, hs.adv, advPulses_append, advPulses, advPulses, List.count_replicate_self,
        BitVec.ofNat_add]
  | answer v =>
    refine (State.mirrors_iff _).2 ⟨fun c => ?_, ?_⟩
    · rw [emit_cfg, emit_chan, emit_trace]
      exact (hchan c).silent (by simp [OutEvent.chan?])
    · simpa [advPulses] using hs.adv
  | dac c code =>
    exact (dacWrite_step c code s).mirrors hs (dacWrite_trace c code s) (by simp [OutEvent.chan?])
      (by simpa using (hchan c).dacEvent _)
  | vel c v =>
    exact (velWrite_step c v s).mirrors hs (velWrite_trace c v s) (by simp [OutEvent.chan?])
      (by simpa using (hchan c).velEvent _)
  | trig c =>
    refine (emitTrig_step c s).mirrors hs (emitTrig_trace c s) ?_ ?_
    · split <;> simp [OutEvent.chan?]
    · rw [emitTrig_chan_self]
      cases (s.chan c).set.trigMode with
      | none => simpa using hchan c
      | trig => exact (hchan c).lineEvent _ _
      | gate => exact (hchan c).lineEvent _ _
  | clear c =>
    exact (lineClear_step c s).mirrors hs (lineClear_trace c s) (by simp [OutEvent.chan?])
      (by simpa using (hchan c).lineEvent _ _)
  | count c =>
    exact (updOut_step c _ s).mirrors hs (es := []) (by simp) (by simp) (by simpa using (hchan c).timer _)

/-- Settles O12: no move breaks the agreement, and a step is a sequence of moves. -/
theorem stepKeepsOutputsMirroringTheTrace : Obligations.StepKeepsOutputsMirroringTheTrace :=
  fun _ _ hs h => (step_moves h).keep Move.mirrors hs

theorem launch_mirrors (cfg : Config) (mode : Mode) : (State.launch cfg mode).Mirrors where
  dac _ _ h := nomatch h
  noDac c _ := by rw [launch_chan]; rfl
  line c := by rw [launch_chan]; rfl
  vel c := by rw [launch_chan]; rfl
  adv := rfl

/-- Settles O10. -/
theorem launchMeetsTheInvariants : Obligations.LaunchMeetsTheInvariants :=
  fun cfg mode => ⟨launch_inv cfg mode, launch_mirrors cfg mode⟩

end Sys2Proof.Machine
end

section
/-! Words as sums of their fields, and a presented command as the next one executed (30_encoding.md R100 to R106,
notes/assumptions/1.md). -/

namespace Sys2Proof.Machine

/-! ### Fields and appended fields as numbers -/

/-- An appended field adds its value below a shifted one. -/
theorem toNat_append_eq_add {m n : Nat} (x : BitVec m) (y : BitVec n) :
    (x ++ y).toNat = x.toNat * 2 ^ n + y.toNat := by
  rw [BitVec.toNat_append, ← Nat.shiftLeft_add_eq_or_of_lt y.isLt, Nat.shiftLeft_eq]

theorem field_toNat (w : Word) (lo len : Nat) : (field w lo len).toNat = w.toNat / 2 ^ lo % 2 ^ len := by
  rw [field, BitVec.extractLsb'_toNat, Nat.shiftRight_eq_div_pow]

/-- A field is the value that stands at its place. -/
theorem field_eq {w : Word} {lo len : Nat} {v : BitVec len} (h : w.toNat / 2 ^ lo % 2 ^ len = v.toNat) :
    field w lo len = v := BitVec.eq_of_toNat_eq ((field_toNat w lo len).trans h)

@[simp] theorem whenZero_zero (n : Nat) (i : Instr) : whenZero (0#n) i = .ok i := if_pos rfl

/-! ### The decoder on encoded commands -/

theorem encodeVoice_toNat (op : BitVec 4) (ch : MidiChannel) (d1 d2 : Data7) :
    (encodeVoice op ch d1 d2).toNat =
      op.toNat * 2 ^ 28 + ch.toNat * 2 ^ 24 + d1.toNat * 2 ^ 16 + d2.toNat * 2 ^ 8 := by
  simp only [encodeVoice, toNat_append_eq_add, BitVec.toNat_ofNat]
  omega

theorem field_encodeVoice_op (op : BitVec 4) (ch : MidiChannel) (d1 d2 : Data7) :
    field (encodeVoice op ch d1 d2) 28 4 = op := field_eq (by rw [encodeVoice_toNat]; omega)

/-- A voice word under its major opcode is the voice command of its operands (30_encoding.md R101). -/
theorem decodeVoice_encodeVoice (make : MidiChannel → Data7 → Data7 → Instr) (op : BitVec 4) (ch : MidiChannel)
    (d1 d2 : Data7) : decodeVoice make (encodeVoice op ch d1 d2) = .ok (make ch d1 d2) := by
  have hn := encodeVoice_toNat op ch d1 d2
  have hch : field (encodeVoice op ch d1 d2) 24 4 = ch := field_eq (by omega)
  have hd1 : field (encodeVoice op ch d1 d2) 16 7 = d1 := field_eq (by omega)
  have hd2 : field (encodeVoice op ch d1 d2) 8 7 = d2 := field_eq (by omega)
  have h23 : field (encodeVoice op ch d1 d2) 23 1 = 0#1 := field_eq (by simp; omega)
  have h15 : field (encodeVoice op ch d1 d2) 15 1 = 0#1 := field_eq (by simp; omega)
  have h0 : field (encodeVoice op ch d1 d2) 0 8 = 0#8 := field_eq (by simp; omega)
  rw [decodeVoice, hch, hd1, hd2, h23, h15, h0]
  rfl

/-- Every command decodes from its word (30_encoding.md R106). -/
theorem decode_encode (i : Instr) : decode (encode i) = .ok i := by
  cases i with
  | nop | tick | progress | clock | start | cont | stop => decide
  | poll sw sync => cases sw <;> cases sync <;> decide
  | allNotesOff c => cases c <;> decide
  | regWrite a v =>
    have hn : (encode (.regWrite a v)).toNat = 2 ^ 28 + a.toNat * 2 ^ 16 + v.toNat := by
      simp only [encode, toNat_append_eq_add, BitVec.toNat_ofNat]
      omega
    have hop : field (encode (.regWrite a v)) 28 4 = 0x1#4 := field_eq (by simp; omega)
    have hzero : field (encode (.regWrite a v)) 24 4 = 0#4 := field_eq (by simp; omega)
    have ha : field (encode (.regWrite a v)) 16 8 = a := field_eq (by omega)
    have hv : field (encode (.regWrite a v)) 0 16 = v := field_eq (by omega)
    simp [decode, hop, hzero, ha, hv]
  | regRead a =>
    have hn : (encode (.regRead a)).toNat = 2 ^ 29 + a.toNat * 2 ^ 16 := by
      simp only [encode, toNat_append_eq_add, BitVec.toNat_ofNat]
      omega
    have hop : field (encode (.regRead a)) 28 4 = 0x2#4 := field_eq (by simp; omega)
    have hzero : field (encode (.regRead a)) 24 4 = 0#4 := field_eq (by simp; omega)
    have hlow : field (encode (.regRead a)) 0 16 = 0#16 := field_eq (by simp; omega)
    have ha : field (encode (.regRead a)) 16 8 = a := field_eq (by omega)
    simp [decode, hop, hzero, ha, hlow]
  | noteOff ch note vel =>
    rw [decode, encode, field_encodeVoice_op]
    exact decodeVoice_encodeVoice .noteOff _ ch note vel
  | noteOn ch note vel =>
    rw [decode, encode, field_encodeVoice_op]
    exact decodeVoice_encodeVoice .noteOn _ ch note vel
  | cc ch num val =>
    rw [decode, encode, field_encodeVoice_op]
    exact decodeVoice_encodeVoice .cc _ ch num val
  | pbend ch amount =>
    have hn : (encode (.pbend ch amount)).toNat = 14 * 2 ^ 28 + ch.toNat * 2 ^ 24 + amount.toNat := by
      simp only [encode, toNat_append_eq_add, BitVec.toNat_ofNat]
      omega
    have hop : field (encode (.pbend ch amount)) 28 4 = 0xE#4 := field_eq (by simp; omega)
    have hzero : field (encode (.pbend ch amount)) 14 10 = 0#10 := field_eq (by simp; omega)
    have hch : field (encode (.pbend ch amount)) 24 4 = ch := field_eq (by omega)
    have hamount : field (encode (.pbend ch amount)) 0 14 = amount := field_eq (by omega)
    simp [decode, hop, hzero, hch, hamount]

/-! ### The command port -/

/-- An opcode-table row as wide as a command word stands for the word itself. -/
theorem tableWord_toNat (w : Word) : tableWord 32 w.toNat = w := by
  rw [tableWord, Nat.mod_eq_of_lt w.isLt, BitVec.ofNat_toNat, BitVec.setWidth_eq]

/-- A presented word of a command is the one that the step executes, and the words behind it stay. -/
theorem step_present {w : Word} {i : Instr} (h : decode w = .ok i) (s : State) : step (present w s) = exec i s := by
  simp [step, h]

/-- Settles O7. -/
theorem presentedCommandIsExecuted : Obligations.PresentedCommandIsExecuted := fun i s => by
  rw [State.withFetchWord, tableWord_toNat]
  exact step_present (decode_encode i) s

end Sys2Proof.Machine
end

section
/-! The register map: one address a register, and what a read of each address returns (10_state.md R64 to R66). -/

namespace Sys2Proof.Machine

/-! ### The address map -/

theorem setRegAt_eq_some_iff {n : Nat} {r : SetReg} : setRegAt n = some r ↔ r.offset = n := by
  constructor
  · intro h
    unfold setRegAt at h
    split at h
    case h_12 =>
      split at h
      next hn => cases h; simp only [SetReg.offset]; omega
      next => cases h
    all_goals cases h; rfl
  · rintro rfl
    cases r with
    | cal k => revert k; decide
    | trigCfg | trigLen | portaCfg | portaAsc | portaDesc | vibCfg | vibPeriod | vibSync | vibDepth | vibDelay
    | pbRange => rfl

theorem SetReg.offset_le (r : SetReg) : r.offset ≤ 0x1A := by
  cases r with
  | cal k => simp only [SetReg.offset]; omega
  | trigCfg | trigLen | portaCfg | portaAsc | portaDesc | vibCfg | vibPeriod | vibSync | vibDepth | vibDelay
  | pbRange => decide

theorem statRegAt_eq_some_iff {n : Nat} {r : StatReg} : statRegAt n = some r ↔ r.offset = n := by
  constructor
  · intro h
    unfold statRegAt at h
    split at h <;> cases h <;> rfl
  · rintro rfl
    cases r <;> rfl

theorem StatReg.offset_le (r : StatReg) : r.offset ≤ 6 := by
  cases r <;> decide

/-- A register below 0x20 or from 0x80 to 0x8F stands at the number that the map finds it by. -/
theorem addr_of_globalRegAt {n : Nat} {r : Reg} (h : globalRegAt n = some r) : r.addr = BitVec.ofNat 8 n := by
  unfold globalRegAt at h
  split at h
  case h_11 =>
    split at h
    next hn => cases h; simp only [Reg.addr]; congr 1; omega
    next => cases h
  all_goals cases h; rfl

/-- The settings registers of a channel fill the addresses from its base up (10_state.md R65). -/
theorem regAt_setBase (c : Chan) {n : Nat} (hn : n ≤ 0x1A) :
    regAt (BitVec.ofNat 8 (setBase c + n)) = (setRegAt n).map (.setting c) := by
  have hnum : (BitVec.ofNat 8 (setBase c + n)).toNat = setBase c + n := by
    cases c <;> rw [BitVec.toNat_ofNat, setBase] <;> omega
  rw [regAt, hnum]
  cases c with
  | a =>
    rw [setBase, if_neg (by omega), if_pos (by omega), Nat.add_sub_cancel_left]
  | b =>
    rw [setBase, if_neg (by omega), if_neg (by omega), if_pos (by omega), Nat.add_sub_cancel_left]

/-- The status registers of a channel fill the addresses from its base up (10_state.md R66). -/
theorem regAt_statBase (c : Chan) {n : Nat} (hn : n ≤ 6) :
    regAt (BitVec.ofNat 8 (statBase c + n)) = (statRegAt n).map (.chanStatus c) := by
  have hnum : (BitVec.ofNat 8 (statBase c + n)).toNat = statBase c + n := by
    cases c <;> rw [BitVec.toNat_ofNat, statBase] <;> omega
  rw [regAt, hnum]
  cases c with
  | a =>
    rw [statBase, if_neg (by omega), if_neg (by omega), if_neg (by omega), if_neg (by omega), if_pos (by omega),
      Nat.add_sub_cancel_left]
  | b =>
    rw [statBase, if_neg (by omega), if_neg (by omega), if_neg (by omega), if_neg (by omega), if_neg (by omega),
      if_pos (by omega), Nat.add_sub_cancel_left]

theorem regAt_addr (r : Reg) : regAt r.addr = some r := by
  cases r with
  | chans | alloc | clkDiv | advWidth | tempoAvg | status | seqPos | msLo | msHi | advCount => rfl
  | kbdMap i => revert i; decide
  | setting c r => rw [Reg.addr, regAt_setBase c r.offset_le, setRegAt_eq_some_iff.2 rfl, Option.map_some]
  | chanStatus c r => rw [Reg.addr, regAt_statBase c r.offset_le, statRegAt_eq_some_iff.2 rfl, Option.map_some]

theorem addr_of_regAt {a : RegAddr} {r : Reg} (h : regAt a = some r) : r.addr = a := by
  have hofNat : BitVec.ofNat 8 a.toNat = a := by simp
  have hset : ∀ {c n}, (setRegAt n).map (.setting c) = some r → r.addr = BitVec.ofNat 8 (setBase c + n) := by
    intro c n h
    obtain ⟨q, hq, rfl⟩ := Option.map_eq_some_iff.1 h
    rw [Reg.addr, setRegAt_eq_some_iff.1 hq]
  have hstat : ∀ {c n}, (statRegAt n).map (.chanStatus c) = some r → r.addr = BitVec.ofNat 8 (statBase c + n) := by
    intro c n h
    obtain ⟨q, hq, rfl⟩ := Option.map_eq_some_iff.1 h
    rw [Reg.addr, statRegAt_eq_some_iff.1 hq]
  unfold regAt at h
  dsimp only at h
  split at h
  · exact (addr_of_globalRegAt h).trans hofNat
  split at h
  · rw [hset h, setBase, Nat.add_sub_cancel' (by omega), hofNat]
  split at h
  · rw [hset h, setBase, Nat.add_sub_cancel' (by omega), hofNat]
  split at h
  · exact (addr_of_globalRegAt h).trans hofNat
  split at h
  · rw [hstat h, statBase, Nat.add_sub_cancel' (by omega), hofNat]
  split at h
  · rw [hstat h, statBase, Nat.add_sub_cancel' (by omega), hofNat]
  · cases h

/-- Settles O21. -/
theorem addressMapIsOneToOne : Obligations.AddressMapIsOneToOne :=
  ⟨regAt_addr, fun _ _ => addr_of_regAt, fun _ _ _ h =>
    ⟨by simp [regRead, h], by simp [exec, execRegWrite, regWrite, h]⟩⟩

/-! ### Reads -/

theorem regRead_addr (s : State) (r : Reg) : regRead s r.addr = regValue s r := by
  rw [regRead, regAt_addr]
  rfl

theorem setBase_eq (c : Chan) : setBase c = if c = .a then 0x20 else 0x40 := by
  cases c <;> rfl

theorem statBase_eq (c : Chan) : statBase c = if c = .a then 0x90 else 0x98 := by
  cases c <;> rfl

/-- Reserved high bits read 0 (20_memory.md R84). -/
theorem toNat_zero_append {m n : Nat} (x : BitVec n) : (0#m ++ x).toNat = x.toNat := by
  simp

theorem statusWord_toNat (s : State) :
    (statusWord s).toNat =
      (if s.seq.mode = .kcs then 1 else 0) + 2 * s.seq.following.toNat
        + 4 * s.cvA.out.trigLine.toNat + 8 * s.cvB.out.trigLine.toNat
        + 16 * s.cvA.rt.sliding.toNat + 32 * s.cvB.rt.sliding.toNat
        + 64 * s.cvA.rt.haveNote.toNat + 128 * s.cvB.rt.haveNote.toNat := by
  have hmode : (modeBit s.seq.mode).toNat = if s.seq.mode = .kcs then 1 else 0 := by
    cases s.seq.mode <;> rfl
  simp only [statusWord, toNat_append_eq_add, BitVec.toNat_ofBool, BitVec.toNat_ofNat, hmode]
  omega

/-- Settles O18. -/
theorem statusRegistersReadTheLiveState : Obligations.StatusRegistersReadTheLiveState := by
  intro s
  have hread := regRead_addr s
  have hnum := fun r => congrArg BitVec.toNat (hread r)
  refine ⟨(hnum .status).trans (statusWord_toNat s), (hnum .seqPos).trans ?seqPos, (hnum .msLo).trans ?msLo,
    hread .msHi, hread .advCount, fun c => ?chan⟩
  case seqPos =>
    simp only [regValue, seqPosWord, toNat_append_eq_add, BitVec.toNat_ofNat]
    omega
  case msLo => simp [regValue]
  case chan =>
    rw [← statBase_eq]
    refine ⟨(hnum (.chanStatus c .dacCode)).trans (toNat_zero_append _), hread (.chanStatus c .velDuty),
      (hnum (.chanStatus c .notes)).trans ?notes,
      (congrArg BitVec.toInt (hread (.chanStatus c .pb))).trans (BitVec.toInt_signExtend_of_le (by decide)),
      congrArg BitVec.toInt (hread (.chanStatus c .vibOff)), (hnum (.chanStatus c .hist)).trans ?hist,
      hread (.chanStatus c .trigCnt)⟩
    case notes =>
      simp only [regValue, chanStatusValue, toNat_append_eq_add, BitVec.toNat_ofNat]
      omega
    case hist =>
      simp only [regValue, chanStatusValue, toNat_append_eq_add, BitVec.toNat_ofNat]
      omega

/-- Settles O19. -/
theorem settingsRegistersReadTheirFields : Obligations.SettingsRegistersReadTheirFields := by
  intro s
  have hread := regRead_addr s
  have hnum := fun r => congrArg BitVec.toNat (hread r)
  refine ⟨(hnum .chans).trans ?chans, (hnum .alloc).trans ?alloc, (hnum .clkDiv).trans (toNat_zero_append _),
    (hnum .advWidth).trans (toNat_zero_append _), hread .tempoAvg,
    fun i => (hnum (.kbdMap i)).trans (toNat_zero_append _), fun c => ?chan⟩
  case chans =>
    simp only [regValue, toNat_append_eq_add, BitVec.toNat_ofNat]
    omega
  case alloc =>
    simp only [regValue, toNat_append_eq_add, BitVec.toNat_ofNat, BitVec.toNat_ofBool]
    omega
  case chan =>
    rw [← setBase_eq]
    refine ⟨(hnum (.setting c .trigCfg)).trans ?trigCfg, hread (.setting c .trigLen),
      (hnum (.setting c .portaCfg)).trans ?portaCfg, hread (.setting c .portaAsc), hread (.setting c .portaDesc),
      (hnum (.setting c .vibCfg)).trans ?vibCfg, hread (.setting c .vibPeriod),
      (hnum (.setting c .vibSync)).trans (toNat_zero_append _),
      (hnum (.setting c .vibDepth)).trans (toNat_zero_append _), hread (.setting c .vibDelay),
      (hnum (.setting c .pbRange)).trans (toNat_zero_append _), fun k => hread (.setting c (.cal k))⟩
    case trigCfg =>
      simp only [regValue, settingValue, toNat_append_eq_add, BitVec.toNat_ofNat]
      omega
    case portaCfg => rw [regValue, settingValue, toNat_zero_append, BitVec.toNat_ofBool]
    case vibCfg =>
      simp only [regValue, settingValue, toNat_append_eq_add, BitVec.toNat_ofNat]
      omega

end Sys2Proof.Machine
end

section
/-! The held bitmap and the reset table (10_state.md R22, R67). -/

namespace Sys2Proof.Machine

/-- The bit of a note, and no other, is set in the note's mask. -/
theorem noteMask_getLsbD (note n : Data7) : (1#128 <<< note.toNat).getLsbD n.toNat = (n == note) := by
  have hn : n.toNat < 128 := n.isLt
  rw [BitVec.getLsbD_shiftLeft, BitVec.getLsbD_one, Bool.eq_iff_iff]
  simp only [Bool.and_eq_true, Bool.not_eq_true', decide_eq_true_eq, decide_eq_false_iff_not, beq_iff_eq,
    ← BitVec.toNat_inj]
  omega

theorem isHeld_holdNote (held : BitVec 128) (note n : Data7) :
    isHeld (holdNote held note) n = (n == note || isHeld held n) := by
  rw [isHeld, holdNote, BitVec.getLsbD_or, noteMask_getLsbD, Bool.or_comm, isHeld]

theorem isHeld_dropNote (held : BitVec 128) (note n : Data7) :
    isHeld (dropNote held note) n = (n != note && isHeld held n) := by
  have hn : n.toNat < 128 := n.isLt
  rw [isHeld, dropNote, BitVec.getLsbD_and, BitVec.getLsbD_not, noteMask_getLsbD, Bool.and_comm, isHeld]
  simp [hn, bne]

/-- Settles O36. -/
theorem heldBitmapChangesOneNote : Obligations.HeldBitmapChangesOneNote :=
  fun held note n => ⟨isHeld_holdNote held note n, isHeld_dropNote held note n⟩

/-- Settles O9: the launch state is the table, entry by entry. -/
theorem resetTableHolds : Obligations.ResetTableHolds := by
  intro mode s
  have hkbd : ∀ i : Fin 8, Routing.reset.kbdMap[i] = BitVec.ofNat 8 (60 + i.val) := by decide
  refine ⟨rfl, rfl, rfl, rfl, rfl, rfl, rfl, rfl, rfl, rfl, rfl, rfl, rfl, hkbd, fun c => ?_⟩
  have hchan : s.chan c = Channel.reset defaultConfig := launch_chan defaultConfig mode c
  have hring : ∀ i : Fin 20, Runtime.reset.histBuf[i] = 0 := by decide
  have hcal : ∀ k : Fin 11, (Settings.reset defaultConfig).cal[k] = 0x2220 := by decide
  rw [hchan]
  exact ⟨rfl, hring, rfl, rfl, rfl, rfl, rfl, rfl, rfl, rfl, rfl, rfl, rfl, rfl, rfl, rfl, rfl, rfl, rfl, rfl, rfl,
    rfl, rfl, rfl, rfl, rfl, rfl, rfl, hcal⟩

end Sys2Proof.Machine
end

section
/-! Who may write what: the registers that only named commands change (10_state.md R20 to R60, 41_cv_pipeline.md R183,
60_exceptions.md R325). -/

namespace Sys2Proof.Machine

/-! ### Footprints -/

/-- The registers that few commands write, by the commands that write them. -/
inductive Part
  | ms | mode | settings
  | pb (c : Chan)
  | haveNote (c : Chan)

/-- From `s` to `t` no part outside `P` changes, the configuration and the waiting words are the same, and no
first-note flag is cleared. -/
structure Changes (P : Part → Prop) (s t : State) : Prop where
  cfg : t.cfg = s.cfg
  port : t.port = s.port
  ms : ¬P .ms → t.ms = s.ms
  mode : ¬P .mode → t.seq.mode = s.seq.mode
  routing : ¬P .settings → t.routing = s.routing
  set : ¬P .settings → ∀ c, (t.chan c).set = (s.chan c).set
  pb : ∀ c, ¬P (.pb c) → (t.chan c).rt.pb = (s.chan c).rt.pb
  haveNote : ∀ c, ¬P (.haveNote c) → (t.chan c).rt.haveNote = (s.chan c).rt.haveNote
  noteKept : ∀ c, (s.chan c).rt.haveNote = true → (t.chan c).rt.haveNote = true

variable {P : Part → Prop} {s t u : State}

theorem Changes.refl (s : State) : Changes P s s :=
  ⟨rfl, rfl, fun _ => rfl, fun _ => rfl, fun _ => rfl, fun _ _ => rfl, fun _ _ => rfl, fun _ _ => rfl, fun _ => id⟩

theorem Changes.trans (h : Changes P s t) (k : Changes P t u) : Changes P s u where
  cfg := k.cfg.trans h.cfg
  port := k.port.trans h.port
  ms hp := (k.ms hp).trans (h.ms hp)
  mode hp := (k.mode hp).trans (h.mode hp)
  routing hp := (k.routing hp).trans (h.routing hp)
  set hp c := (k.set hp c).trans (h.set hp c)
  pb c hp := (k.pb c hp).trans (h.pb c hp)
  haveNote c hp := (k.haveNote c hp).trans (h.haveNote c hp)
  noteKept c := k.noteKept c ∘ h.noteKept c

theorem changes_ite {p : Prop} [Decidable p] (ht : p → Changes P s t) (hu : ¬p → Changes P s u) :
    Changes P s (if p then t else u) := by
  split
  · exact ht ‹_›
  · exact hu ‹_›

theorem routed_changes {p : Bool} {f : State → State} (h : p = true → Changes P s (f s)) :
    Changes P s (routed p f s) := changes_ite h fun _ => .refl s

/-! ### The footprints of the operations -/

/-- An operation of a channel changes at most the channel's bend and its first-note flag, of the parts. -/
theorem ChanStep.changes {c : Chan} (h : ChanStep c s t)
    (hpb : ¬P (.pb c) → (t.chan c).rt.pb = (s.chan c).rt.pb)
    (hnote : ¬P (.haveNote c) → (t.chan c).rt.haveNote = (s.chan c).rt.haveNote)
    (hkept : (s.chan c).rt.haveNote = true → (t.chan c).rt.haveNote = true) : Changes P s t where
  cfg := h.cfg
  port := h.port
  ms _ := h.ms
  mode _ := by rw [h.seq]
  routing _ := h.routing
  set _ d := by
    by_cases hd : d = c
    · exact hd ▸ h.set
    · rw [h.other d hd]
  pb d hp := by
    by_cases hd : d = c
    · subst hd; exact hpb hp
    · rw [h.other d hd]
  haveNote d hp := by
    by_cases hd : d = c
    · subst hd; exact hnote hp
    · rw [h.other d hd]
  noteKept d hn := by
    by_cases hd : d = c
    · subst hd; exact hkept hn
    · rw [h.other d hd]; exact hn

/-- An operation that keeps the bend and the first-note flag changes no part. -/
theorem ChanStep.changes_of_eq {c : Chan} (h : ChanStep c s t) (hpb : (t.chan c).rt.pb = (s.chan c).rt.pb)
    (hnote : (t.chan c).rt.haveNote = (s.chan c).rt.haveNote) : Changes P s t :=
  h.changes (fun _ => hpb) (fun _ => hnote) hnote.trans

theorem updSeq_changes (f : Sequencer → Sequencer) (h : ¬P .mode → (f s.seq).mode = s.seq.mode) :
    Changes P s (s.updSeq f) where
  cfg := rfl
  port := rfl
  ms _ := rfl
  mode := h
  routing _ := rfl
  set _ c := by simp
  pb c _ := by simp
  haveNote c _ := by simp
  noteKept c := by simp

theorem adv_changes (n : Nat) (s : State) : Changes P s (adv n s) := by
  rw [adv_eq]
  exact ⟨rfl, rfl, fun _ => rfl, fun _ => rfl, fun _ => rfl, fun _ _ => rfl, fun _ _ => rfl, fun _ _ => rfl,
    fun _ => id⟩

theorem updSet_changes (c : Chan) (f : Settings → Settings) (h : P .settings) : Changes P s (s.updSet c f) where
  cfg := by simp
  port := by simp
  ms _ := by simp
  mode _ := by simp
  routing _ := by simp
  set hp := absurd h hp
  pb d _ := by rw [updSet_chan]; split <;> simp_all
  haveNote d _ := by rw [updSet_chan]; split <;> simp_all
  noteKept d := by rw [updSet_chan]; split <;> simp_all

theorem updRouting_changes (f : Routing → Routing) (h : P .settings) : Changes P s (s.updRouting f) where
  cfg := rfl
  port := rfl
  ms _ := rfl
  mode _ := rfl
  routing hp := absurd h hp
  set hp := absurd h hp
  pb c _ := by simp
  haveNote c _ := by simp
  noteKept c := by simp

section
variable (c : Chan) (s : State)

@[simp] theorem emitTrig_rt : ((emitTrig c s).chan c).rt = (s.chan c).rt := by
  rw [emitTrig_chan_self]

theorem emitTrig_changes : Changes P s (emitTrig c s) :=
  (emitTrig_step c s).changes_of_eq (by simp) (by simp)

theorem lineClear_changes : Changes P s (lineClear c s) :=
  (lineClear_step c s).changes_of_eq (by simp) (by simp)

theorem tickTimer_changes : Changes P s (tickTimer c s) :=
  changes_ite (fun _ => .refl s) fun _ =>
    changes_ite (fun _ => lineClear_changes c s) fun _ => (updOut_step c _ s).changes_of_eq (by simp) (by simp)

theorem slideProgress_changes : Changes P s (slideProgress c s) :=
  (slideProgress_step c s).changes_of_eq (by simp [slideProgress, writeCurrent, progressRt])
    (by simp [slideProgress, writeCurrent, progressRt])

theorem pitchBend_chan_pb (amount : BitVec 14) : ((pitchBend c amount s).chan c).rt.pb = amount := by
  simp [pitchBend, writeCurrent]

theorem pitchBend_changes (amount : BitVec 14) (h : P (.pb c)) : Changes P s (pitchBend c amount s) :=
  (pitchBend_step c amount s).changes (absurd h) (fun _ => by simp [pitchBend, writeCurrent])
    (by simp [pitchBend, writeCurrent])

/-- A glide decision keeps the bend and the first-note flag (40_cv_channel.md R131). -/
theorem beginNote_rt (start note : Data7) :
    ((beginNote c start note s).chan c).rt.pb = (s.chan c).rt.pb ∧
      ((beginNote c start note s).chan c).rt.haveNote = (s.chan c).rt.haveNote := by
  unfold beginNote
  split <;> simp

/-- A note keeps the bend and sets the first-note flag (40_cv_channel.md R131). -/
theorem noteOn_rt (note vel : Data7) (sendVelocity addToHistory : Bool) :
    ((noteOn c note vel sendVelocity addToHistory s).chan c).rt.pb = (s.chan c).rt.pb ∧
      ((noteOn c note vel sendVelocity addToHistory s).chan c).rt.haveNote = true := by
  obtain ⟨hpb, hnote⟩ := beginNote_rt c (s.updRt c (noteOnRt s.ms note addToHistory))
    (noteOnRt s.ms note addToHistory (s.chan c).rt).startNote note
  have hrt : ((noteOn c note vel sendVelocity addToHistory s).chan c).rt =
      ((beginNote c (noteOnRt s.ms note addToHistory (s.chan c).rt).startNote note
        (s.updRt c (noteOnRt s.ms note addToHistory))).chan c).rt := by
    cases sendVelocity <;> simp [noteOn]
  rw [hrt, hpb, hnote, updRt_chan_self]
  exact ⟨by cases addToHistory <;> rfl, rfl⟩

theorem noteOn_changes (note vel : Data7) (sendVelocity addToHistory : Bool) (h : P (.haveNote c)) :
    Changes P s (noteOn c note vel sendVelocity addToHistory s) := by
  obtain ⟨hpb, hnote⟩ := noteOn_rt c s note vel sendVelocity addToHistory
  exact (noteOn_step c note vel sendVelocity addToHistory s).changes (fun _ => hpb) (absurd h) fun _ => hnote

/-- A release plays no note again in the mode Off (40_cv_channel.md R140). -/
theorem resound_changes (vel : Data7) (h : (s.chan c).set.retrigMode ≠ .off → P (.haveNote c)) :
    Changes P s (resound c vel s) := by
  unfold resound
  split
  next n hnext =>
    exact noteOn_changes c s n vel false false (h fun hoff => by simp [hoff, selectNext] at hnext)
  next => exact .refl s

theorem noteOff_changes (note vel : Data7) (h : (s.chan c).set.retrigMode ≠ .off → P (.haveNote c)) :
    Changes P s (noteOff c note vel s) :=
  (((updRt_step c _ s).changes_of_eq (by simp) (by simp)).trans
    (resound_changes c (s.updRt c fun r => { r with held := dropNote r.held note }) vel (by simpa using h))).trans
    (changes_ite (fun _ => lineClear_changes c _) fun _ => .refl _)

theorem polyRelease_changes (note vel : Data7) (h : (s.chan c).set.retrigMode ≠ .off → P (.haveNote c)) :
    Changes P s (polyRelease c note vel s) :=
  (noteOff_changes c s note vel h).trans (changes_ite (fun _ => lineClear_changes c _) fun _ => .refl _)

theorem allNotesOff_changes : Changes P s (allNotesOff c s) :=
  ((updRt_step c _ s).changes_of_eq (by simp) (by simp)).trans
    (changes_ite (fun _ => lineClear_changes c _) fun _ => .refl _)

theorem controlChange_changes (num val : Data7) (h : P .settings) : Changes P s (controlChange c num val s) := by
  unfold controlChange
  split
  · exact updSet_changes c _ h
  · exact .refl s
  · exact .refl s

end

theorem clockPulse_changes (s : State) : Changes P s (clockPulse s) :=
  (updSeq_changes _ fun _ => rfl).trans
    (changes_ite (fun _ => (updSeq_changes _ fun _ => rfl).trans (adv_changes 1 _)) fun _ => .refl _)

theorem modeTransition_changes (sw : Mode) (s : State) (h : P .mode) : Changes P s (modeTransition sw s) :=
  ((updSeq_changes (fun q => { q with mode := sw, cnt := 0 }) (absurd h)).trans (adv_changes _ _)).trans
    (updSeq_changes (fun q => { q with step := 0 }) fun _ => rfl)

theorem kbdJump_changes (note : Data7) (s : State) : Changes P s (kbdJump note s) := by
  unfold kbdJump
  split
  · exact .refl s
  · exact (adv_changes _ s).trans (updSeq_changes _ fun _ => rfl)

theorem regStore_changes (r : Reg) (v : Half) (s : State) (h : P .settings) : Changes P s (regStore r v s) := by
  cases r with
  | chans | alloc | clkDiv | advWidth | tempoAvg | kbdMap => rw [regStore]; exact updRouting_changes _ h
  | setting c r => exact updSet_changes c _ h
  | status | seqPos | msLo | msHi | advCount | chanStatus => exact .refl s

/-! ### The footprints of the commands -/

/-- The parts that a command may write in the state `s`. -/
def writes (s : State) : Instr → Part → Prop
  | .tick, .ms => True
  | .poll _ _, .mode => True
  | .pbend ch _, .pb .a => ch = s.routing.chanA
  | .pbend ch _, .pb .b => ch = s.routing.chanB
  | .cc _ _ _, .settings => True
  | .regWrite _ _, .settings => True
  | .noteOn _ _ _, .haveNote _ => True
  | .noteOff _ _ _, .haveNote c => (s.chan c).set.retrigMode ≠ .off
  | _, _ => False

theorem exec_changes {i : Instr} (h : exec i s = .next t) : Changes (writes s i) s t := by
  cases i with
  | nop => cases h; exact .refl s
  | tick =>
    cases h
    have htime : Changes (writes s .tick) s { s with ms := s.ms + 1 } :=
      ⟨rfl, rfl, absurd trivial, fun _ => rfl, fun _ => rfl, fun _ _ => rfl, fun _ _ => rfl, fun _ _ => rfl,
        fun _ => id⟩
    exact (htime.trans (tickTimer_changes .a _)).trans (tickTimer_changes .b _)
  | progress => cases h; exact (slideProgress_changes .a s).trans (slideProgress_changes .b _)
  | poll sw sync =>
    cases h
    exact (changes_ite (fun _ => .refl s) fun _ => modeTransition_changes sw s trivial).trans
      (changes_ite (fun _ => updSeq_changes _ fun _ => rfl) fun _ => .refl _)
  | allNotesOff c => cases h; exact allNotesOff_changes c s
  | regWrite a v =>
    cases h
    unfold regWrite
    split
    · exact regStore_changes _ v s trivial
    · exact .refl s
  | regRead a =>
    cases h
    have hlatch : Changes (writes s (.regRead a)) s (readEffect a s) :=
      changes_ite (fun _ => ⟨rfl, rfl, fun _ => rfl, fun _ => rfl, fun _ => rfl, fun _ _ => rfl, fun _ _ => rfl,
        fun _ _ => rfl, fun _ => id⟩) fun _ => .refl s
    exact hlatch.trans ((emit_step .a (.rdata _) _ nofun).changes_of_eq (by simp) (by simp))
  | noteOff ch note vel =>
    cases h
    refine changes_ite (fun _ => routed_changes fun _ => ?_) fun _ => ?_
    · exact changes_ite (fun _ => polyRelease_changes .a s note vel id) fun _ =>
        changes_ite (fun _ => polyRelease_changes .b s note vel id) fun _ => .refl s
    · have hA : Changes (writes s (.noteOff ch note vel)) s (routed (toA s ch) (Machine.noteOff .a note vel) s) :=
        routed_changes fun _ => noteOff_changes .a s note vel id
      exact hA.trans (routed_changes fun _ => noteOff_changes .b _ note vel fun hoff => by
        rwa [hA.set id .b] at hoff)
  | noteOn ch note vel =>
    cases h
    have hjump : Changes (writes s (.noteOn ch note vel)) s (routed (toKbd s ch) (kbdJump note) s) :=
      routed_changes fun _ => kbdJump_changes note s
    refine hjump.trans (changes_ite (fun _ => ?_) fun _ => ?_)
    · exact routed_changes fun _ => changes_ite (fun _ => noteOn_changes .a _ note vel true true trivial) fun _ =>
        (noteOn_changes .b _ note vel _ true trivial).trans (emitTrig_changes .a _)
    · exact (routed_changes fun _ => noteOn_changes .a _ note vel true true trivial).trans
        (routed_changes fun _ => noteOn_changes .b _ note vel _ true trivial)
  | cc ch num val =>
    cases h
    split
    · exact .refl s
    · exact routed_changes fun _ => updRouting_changes _ trivial
    · exact (routed_changes fun _ => controlChange_changes .a s num val trivial).trans
        (routed_changes fun _ => controlChange_changes .b _ num val trivial)
  | pbend ch amount =>
    cases h
    have hA : Changes (writes s (.pbend ch amount)) s (routed (toA s ch) (pitchBend .a amount) s) :=
      routed_changes fun hto => pitchBend_changes .a s amount (eq_of_beq (a := ch) hto)
    exact hA.trans (routed_changes fun hto => pitchBend_changes .b _ amount (eq_of_beq (a := ch) hto))
  | clock =>
    simp only [exec, execClock] at h
    split at h <;> cases h
    · exact clockPulse_changes s
    · exact .refl s
  | start =>
    simp only [exec, execStart] at h
    split at h <;> cases h
    · exact (adv_changes _ s).trans (updSeq_changes _ fun _ => rfl)
    · exact .refl s
  | cont =>
    simp only [exec, execCont] at h
    split at h <;> cases h
    · exact updSeq_changes _ fun _ => rfl
    · exact .refl s
  | stop =>
    simp only [exec, execStop] at h
    split at h <;> cases h
    · exact updSeq_changes _ fun _ => rfl
    · exact .refl s

/-! ### What the writers of one register store -/

theorem exec_tick_ms (h : exec .tick s = .next t) : t.ms = s.ms + 1 := by
  cases h
  exact (tickTimer_step .b _).ms.trans (tickTimer_step .a _).ms

theorem exec_poll_mode {sw : Mode} {sync : Bool} (h : exec (.poll sw sync) s = .next t) : t.seq.mode = sw := by
  cases h
  by_cases hsw : sw = s.seq.mode <;> cases sync <;> simp [hsw, modeTransition, rewind]

/-- `PBEND` stores its amount on each channel that it reaches, CV-A's being out of CV-B's reach
(44_router.md R272). -/
theorem exec_pbend_pb {amount : BitVec 14} {ch : MidiChannel} (h : exec (.pbend ch amount) s = .next t) :
    (ch = s.routing.chanA → t.cvA.rt.pb = amount) ∧ (ch = s.routing.chanB → t.cvB.rt.pb = amount) := by
  cases h
  constructor
  · intro hA
    have hpb := pitchBend_chan_pb .a s amount
    have hother := fun u => (pitchBend_step .b amount u).other .a nofun
    simp only [chan_a] at hpb hother
    simp only [routed, toA, hA, beq_self_eq_true, if_true]
    split
    · rw [hother, hpb]
    · exact hpb
  · intro hB
    simp only [routed, toB, hB, beq_self_eq_true, if_true]
    exact pitchBend_chan_pb .b _ amount

/-- Settles O57. -/
theorem registersHaveOnlyTheirWriters : Obligations.RegistersHaveOnlyTheirWriters := by
  intro i s t h
  have hc := exec_changes h
  refine ⟨hc.cfg, hc.port, ?ms, fun hne => ?mode, fun hne => ?pbA, fun hne => ?pbB, fun hne => ?settings,
    fun c => ⟨hc.noteKept c, fun hne => ?haveNote⟩⟩
  case ms =>
    split
    next hi => exact exec_tick_ms (hi ▸ h)
    next hi => exact hc.ms fun hw => by cases i <;> simp_all [writes]
  case mode =>
    have hw : writes s i .mode := by_contra fun hw => hne (hc.mode hw)
    cases i with
    | poll sw sync => exact ⟨sync, by rw [exec_poll_mode h]⟩
    | _ => exact hw.elim
  case pbA =>
    have hw : writes s i (.pb .a) := by_contra fun hw => hne (hc.pb .a hw)
    cases i with
    | pbend ch amount => rw [(exec_pbend_pb h).1 hw]; exact congrArg (Instr.pbend · amount) hw
    | _ => exact hw.elim
  case pbB =>
    have hw : writes s i (.pb .b) := by_contra fun hw => hne (hc.pb .b hw)
    cases i with
    | pbend ch amount => rw [(exec_pbend_pb h).2 hw]; exact congrArg (Instr.pbend · amount) hw
    | _ => exact hw.elim
  case settings =>
    have hw : writes s i .settings := by
      by_contra hw
      obtain hr | ⟨c, hset⟩ := hne
      · exact hr (hc.routing hw)
      · exact hset (hc.set hw c)
    cases i with
    | cc ch num val => exact .inl ⟨ch, num, val, rfl⟩
    | regWrite a v => exact .inr ⟨a, v, rfl⟩
    | _ => exact hw.elim
  case haveNote =>
    have hw : writes s i (.haveNote c) := by_contra fun hw => hne (hc.haveNote c hw)
    cases i with
    | noteOn ch note vel => exact .inl ⟨ch, note, vel, rfl⟩
    | noteOff ch note vel => exact .inr ⟨hw, ch, note, vel, rfl⟩
    | _ => exact hw.elim

end Sys2Proof.Machine
end

section
/-! The step as the execution of the next word, a command repeated, and the two halves of `ms` read one after the
other (20_memory.md R86, R90, 45_system.md R295). -/

namespace Sys2Proof.Machine

/-! ### The next word -/

/-- A word at the head of the port stands there as if it had just been presented. -/
theorem present_take {s : State} {w : Word} {rest : List Word} (h : s.port = w :: rest) :
    present w { s with port := rest } = s := by
  rw [present, ← h]

theorem step_idle {s : State} (h : s.port = []) : step s = .next s := by
  rw [step, (fetch_eq_none_iff s).2 h]

/-- Settles O6. -/
theorem stepRunsTheDecodedCommand : Obligations.StepRunsTheDecodedCommand :=
  ⟨fun s _ rest _ hport hdecode =>
    (congrArg step (present_take hport)).symm.trans (step_present hdecode { s with port := rest }),
    fun _ => step_idle⟩

/-! ### Commands repeated -/

/-- What every execution of a command keeps, its repetition keeps. -/
theorem execTimes_keep {i : Instr} {P : State → Prop} (one : ∀ s, P s → ∃ t, exec i s = .next t ∧ P t) (n : Nat)
    (s : State) (hs : P s) : ∃ t, execTimes i n s = .next t ∧ P t := by
  induction n generalizing s with
  | zero => exact ⟨s, rfl, hs⟩
  | succ n ih =>
    obtain ⟨t, ht, hPt⟩ := one s hs
    rw [execTimes, ht]
    exact ih t hPt

/-! ### The two halves of `ms` -/

theorem exec_tick_msHiLatch {s t : State} (h : exec .tick s = .next t) : t.msHiLatch = s.msHiLatch := by
  cases h
  exact (tickTimer_step .b _).msHiLatch.trans (tickTimer_step .a _).msHiLatch

/-- `MS_LO` answers the low half of `ms` and latches the high half (10_state.md R61). -/
theorem exec_regRead_msLo (s : State) :
    exec (.regRead 0x82) s =
      .next ({ s with msHiLatch := s.ms.extractLsb' 16 16 }.emit (.rdata (s.ms.extractLsb' 0 16))) := rfl

/-- `MS_HI` answers the latch. -/
theorem exec_regRead_msHi (s : State) : exec (.regRead 0x83) s = .next (s.emit (.rdata s.msHiLatch)) := rfl

theorem append_halves (x : BitVec 32) : x.extractLsb' 16 16 ++ x.extractLsb' 0 16 = x := by
  have h := BitVec.extractLsb'_append_extractLsb'_eq_extractLsb' (x := x) (start₁ := 0) (len₁ := 16)
    (start₂ := 16) (len₂ := 16) rfl
  simpa using h

/-- Settles O22: no tick writes the latch. -/
theorem millisecondReadIsConsistent : Obligations.MillisecondReadIsConsistent := by
  intro s n
  obtain ⟨u, hu, hlatch⟩ := execTimes_keep (i := .tick) (P := fun t => t.msHiLatch = s.ms.extractLsb' 16 16)
    (fun t ht => ⟨_, rfl, (exec_tick_msHiLatch rfl).trans ht⟩) n
    ({ s with msHiLatch := s.ms.extractLsb' 16 16 }.emit (.rdata (s.ms.extractLsb' 0 16))) rfl
  refine ⟨_, u, _, _, u.msHiLatch, exec_regRead_msLo s, hu, exec_regRead_msHi u, rfl, rfl, ?_⟩
  rw [hlatch]
  exact append_halves s.ms

end Sys2Proof.Machine
end

section
/-! Register writes: what a write of each register stores, and what it leaves (20_memory.md R85,
45_system.md R293). -/

namespace Sys2Proof.Machine

/-! ### Fields of a written value -/

theorem bits_toNat (v : Half) (lo len : Nat) : (bits v lo len).toNat = v.toNat / 2 ^ lo % 2 ^ len := by
  rw [bits, BitVec.extractLsb'_toNat, Nat.shiftRight_eq_div_pow]

/-- The mask of a field, at its place, cuts the field out of a register value. -/
theorem and_fieldMask (v : Half) (lo len : Nat) :
    v &&& ((BitVec.allOnes len).setWidth 16 <<< lo) = (bits v lo len).setWidth 16 <<< lo := by
  refine BitVec.eq_of_getLsbD_eq fun i hi => ?_
  by_cases hlo : i < lo
  · simp [hlo]
  · simp [bits, hlo, hi, Nat.add_sub_cancel' (Nat.le_of_not_lt hlo), Bool.and_comm]

/-- The low `n` bits, the reserved bits above them dropped (20_memory.md R85). -/
theorem and_lowMask_toNat (v : Half) (n : Nat) (hn : n ≤ 16) :
    (v &&& BitVec.ofNat 16 (2 ^ n - 1)).toNat = v.toNat % 2 ^ n := by
  have hpow : 2 ^ n ≤ 2 ^ 16 := Nat.pow_le_pow_right (by decide) hn
  rw [BitVec.toNat_and, BitVec.toNat_ofNat, Nat.mod_eq_of_lt (by have := Nat.two_pow_pos n; omega),
    Nat.and_two_pow_sub_one_eq_mod]

theorem ofBool_beq_one : ∀ b : BitVec 1, BitVec.ofBool (b == 1) = b := by decide

/-- A whole low part of a register reads back the written bits. -/
theorem zero_append_bits_low {m n : Nat} (v : Half) (hn : n ≤ 16) :
    (0#m ++ bits v 0 n).toNat = (v &&& BitVec.ofNat 16 (2 ^ n - 1)).toNat := by
  rw [toNat_zero_append, bits_toNat, and_lowMask_toNat v n hn, Nat.pow_zero, Nat.div_one]

/-- The code 3 is reserved for trigger modes, vibrato modes and shapes; every retrigger code is stored as it is
(10_state.md R65). -/
theorem code_ofCode (b : BitVec 2) :
    (TrigMode.ofCode b).code = (if b = 3 then 0 else b) ∧ (VibMode.ofCode b).code = (if b = 3 then 0 else b) ∧
      (VibShape.ofCode b).code = (if b = 3 then 0 else b) ∧ (RetrigMode.ofCode b).code = b := by
  revert b
  decide

/-- A coded field at its place, the reserved code read as 0. -/
theorem legalCode_eq (v : Half) (lo : Nat) :
    legalCode v lo = (if bits v lo 2 = 3 then 0 else bits v lo 2).setWidth 16 <<< lo := by
  have hmask : ((3 <<< lo : Nat) : Half) = (BitVec.allOnes 2).setWidth 16 <<< lo :=
    BitVec.eq_of_toNat_eq (by simp)
  rw [legalCode, hmask]
  split
  · simp
  · exact and_fieldMask v lo 2

/-- The fields of `TRIG_CFG` are the two at their places (10_state.md R65). -/
theorem trigCfg_fields : ∀ x y : BitVec 2, 0#12 ++ x ++ y = y.setWidth 16 <<< 0 ||| x.setWidth 16 <<< 2 := by decide

/-- The fields of `VIB_CFG` are the three at their places (10_state.md R65). -/
theorem vibCfg_fields : ∀ x y z : BitVec 2,
    0#10 ++ x ++ y ++ z = z.setWidth 16 <<< 0 ||| y.setWidth 16 <<< 2 ||| x.setWidth 16 <<< 4 := by decide

/-! ### What a register write stores -/

/-- The written register of a channel reads back the written bits after legalisation. -/
theorem settingValue_settingStore (s : State) (c : Chan) (r : SetReg) (v : Half) (set : Settings) :
    settingValue r (settingStore r v set) = readBack s v (.setting c r) := by
  cases r with
  | trigLen | portaAsc | portaDesc | vibPeriod | vibDelay => rfl
  | cal k => exact Vector.getElem_set_self _
  | trigCfg =>
    obtain ⟨htrig, -, -, -⟩ := code_ofCode (bits v 0 2)
    obtain ⟨-, -, -, hretrig⟩ := code_ofCode (bits v 2 2)
    rw [settingStore, settingValue, htrig, hretrig, trigCfg_fields, ← legalCode_eq, ← and_fieldMask]
    rfl
  | vibCfg =>
    obtain ⟨-, hmode, -, -⟩ := code_ofCode (bits v 0 2)
    obtain ⟨-, -, hshape, -⟩ := code_ofCode (bits v 2 2)
    rw [settingStore, settingValue, hmode, hshape, vibCfg_fields, ← legalCode_eq, ← legalCode_eq, ← and_fieldMask]
    rfl
  | portaCfg =>
    rw [settingStore, settingValue, ofBool_beq_one]
    exact BitVec.eq_of_toNat_eq (zero_append_bits_low v (by decide))
  | vibSync | vibDepth | pbRange => exact BitVec.eq_of_toNat_eq (zero_append_bits_low v (by decide))

/-- A write of one register of a channel leaves every other one. -/
theorem settingValue_settingStore_ne {q r : SetReg} (h : q ≠ r) (v : Half) (set : Settings) :
    settingValue q (settingStore r v set) = settingValue q set := by
  cases r with
  | cal k =>
    cases q with
    | cal j => exact Vector.getElem_set_ne k.isLt j.isLt fun hkj => h (congrArg SetReg.cal (Fin.ext hkj.symm))
    | _ => rfl
  | trigCfg | trigLen | portaCfg | portaAsc | portaDesc | vibCfg | vibPeriod | vibSync | vibDepth | vibDelay
  | pbRange => cases q <;> simp_all [settingStore, settingValue]

/-- The stored division is legalised as the register's value is (10_state.md R58). -/
theorem clkDiv_readBack : ∀ d : BitVec 5,
    0#11 ++ legalClkDiv d =
      if 0#11 ++ d = 0 then 1 else if (24 : Half) < 0#11 ++ d then 24 else 0#11 ++ d := by decide

/-- The written register reads back the written bits after legalisation, and a status register its live value. -/
theorem regValue_regStore (r : Reg) (v : Half) (s : State) : regValue (regStore r v s) r = readBack s v r := by
  cases r with
  | status | seqPos | msLo | msHi | advCount | chanStatus | tempoAvg => rfl
  | advWidth => exact BitVec.eq_of_toNat_eq (zero_append_bits_low v (by decide))
  | kbdMap i =>
    have hcell : (s.routing.kbdMap.set i (bits v 0 8))[i] = bits v 0 8 := Vector.getElem_set_self _
    rw [regStore, regValue, updRouting_routing, hcell]
    exact BitVec.eq_of_toNat_eq (zero_append_bits_low v (by decide))
  | setting c r =>
    rw [regStore, regValue, updSet_chan_self]
    exact settingValue_settingStore s c r v _
  | clkDiv =>
    have hlow : 0#11 ++ bits v 0 5 = v &&& 0x1F := BitVec.eq_of_toNat_eq (zero_append_bits_low v (by decide))
    rw [readBack, ← hlow]
    exact clkDiv_readBack (bits v 0 5)
  | chans =>
    refine BitVec.eq_of_toNat_eq (Eq.trans ?_ (and_lowMask_toNat v 12 (by decide)).symm)
    simp only [regStore, regValue, updRouting_routing, toNat_append_eq_add, bits_toNat, BitVec.toNat_ofNat]
    omega
  | alloc =>
    refine BitVec.eq_of_toNat_eq (Eq.trans ?_ (and_lowMask_toNat v 2 (by decide)).symm)
    simp only [regStore, regValue, updRouting_routing, ofBool_beq_one, toNat_append_eq_add, bits_toNat,
      BitVec.toNat_ofNat]
    omega

/-! ### What a register write leaves -/

/-- From `s` to `t` nothing but settings changes: no runtime register, no output, no event (20_memory.md R85). -/
structure SettingsOnly (s t : State) : Prop where
  cfg : t.cfg = s.cfg
  ms : t.ms = s.ms
  seq : t.seq = s.seq
  msHiLatch : t.msHiLatch = s.msHiLatch
  advCount : t.advCount = s.advCount
  trace : t.trace = s.trace
  port : t.port = s.port
  rt : ∀ c, (t.chan c).rt = (s.chan c).rt
  out : ∀ c, (t.chan c).out = (s.chan c).out

theorem SettingsOnly.refl (s : State) : SettingsOnly s s :=
  ⟨rfl, rfl, rfl, rfl, rfl, rfl, rfl, fun _ => rfl, fun _ => rfl⟩

theorem updRouting_settingsOnly (s : State) (f : Routing → Routing) : SettingsOnly s (s.updRouting f) :=
  ⟨rfl, rfl, rfl, rfl, rfl, rfl, rfl, by simp, by simp⟩

theorem updSet_settingsOnly (s : State) (c : Chan) (f : Settings → Settings) : SettingsOnly s (s.updSet c f) where
  cfg := updSet_cfg s c f
  ms := updSet_ms s c f
  seq := updSet_seq s c f
  msHiLatch := updSet_msHiLatch s c f
  advCount := updSet_advCount s c f
  trace := updSet_trace s c f
  port := updSet_port s c f
  rt d := by rw [updSet_chan]; split <;> simp_all
  out d := by rw [updSet_chan]; split <;> simp_all

theorem regStore_settingsOnly (r : Reg) (v : Half) (s : State) : SettingsOnly s (regStore r v s) := by
  cases r with
  | chans | alloc | clkDiv | advWidth | tempoAvg | kbdMap => rw [regStore]; exact updRouting_settingsOnly s _
  | setting c r => exact updSet_settingsOnly s c _
  | status | seqPos | msLo | msHi | advCount | chanStatus => exact .refl s

theorem regWrite_settingsOnly (a : RegAddr) (v : Half) (s : State) : SettingsOnly s (regWrite a v s) := by
  unfold regWrite
  split
  · exact regStore_settingsOnly _ v s
  · exact .refl s

/-- The registers from 0x80 up are the status registers, which ignore a write (10_state.md R66). -/
theorem regStore_of_le_addr {r : Reg} (h : 0x80 ≤ r.addr.toNat) (v : Half) (s : State) : regStore r v s = s := by
  cases r with
  | status | seqPos | msLo | msHi | advCount | chanStatus => rfl
  | chans | alloc | clkDiv | advWidth | tempoAvg => exact absurd h (by decide)
  | kbdMap i => rw [Reg.addr, BitVec.toNat_ofNat] at h; omega
  | setting c r =>
    have hoff := r.offset_le
    rw [Reg.addr, BitVec.toNat_ofNat, setBase_eq] at h
    split at h <;> omega

/-- A write of one channel's settings shows in the settings registers of that channel only. -/
theorem regValue_updSet {c : Chan} {f : Settings → Settings} {q : Reg} {s : State}
    (h : ∀ p, q = .setting c p → settingValue p (f (s.chan c).set) = settingValue p (s.chan c).set) :
    regValue (s.updSet c f) q = regValue s q := by
  cases q with
  | setting d p =>
    rw [regValue, regValue, updSet_chan]
    split
    next hd => exact hd ▸ h p (by rw [hd])
    next => rfl
  | chans | alloc | clkDiv | advWidth | tempoAvg | kbdMap | seqPos | msLo | msHi | advCount => simp [regValue]
  | status => cases c <;> rfl
  | chanStatus d p => cases c <;> cases d <;> rfl

/-- A write of one register leaves what every other one reads. -/
theorem regValue_regStore_ne {q r : Reg} (h : q ≠ r) (v : Half) (s : State) :
    regValue (regStore r v s) q = regValue s q := by
  cases r with
  | status | seqPos | msLo | msHi | advCount | chanStatus => rfl
  | setting c r =>
    exact regValue_updSet fun p hp =>
      settingValue_settingStore_ne (fun hpr => h (hp.trans (congrArg (Reg.setting c) hpr))) v _
  | kbdMap i =>
    cases q with
    | kbdMap j =>
      have hcell : (s.routing.kbdMap.set i (bits v 0 8))[j] = s.routing.kbdMap[j] :=
        Vector.getElem_set_ne _ _ fun hij => h (congrArg Reg.kbdMap (Fin.ext hij.symm))
      exact congrArg (0#8 ++ ·) hcell
    | setting c p => simp [regStore, regValue]
    | _ => rfl
  | chans | alloc | clkDiv | advWidth | tempoAvg =>
    cases q with
    | setting | chanStatus => simp [regStore, regValue]
    | _ => simp_all [regStore, regValue, statusWord]

/-! ### `REG_WRITE` by address -/

theorem regWrite_of_regAt {a : RegAddr} {r : Reg} (h : regAt a = some r) (v : Half) (s : State) :
    regWrite a v s = regStore r v s := by
  rw [regWrite, h]

theorem regWrite_reserved {a : RegAddr} (h : regAt a = none) (v : Half) (s : State) : regWrite a v s = s := by
  rw [regWrite, h]

theorem regRead_of_regAt {a : RegAddr} {r : Reg} (h : regAt a = some r) (s : State) : regRead s a = regValue s r := by
  rw [regRead, h]
  rfl

theorem regRead_regWrite_ne {a b : RegAddr} (h : b ≠ a) (v : Half) (s : State) :
    regRead (regWrite a v s) b = regRead s b := by
  cases ha : regAt a with
  | none => rw [regWrite_reserved ha]
  | some r =>
    cases hb : regAt b with
    | none => rw [regRead, regRead, hb]; rfl
    | some q =>
      have hqr : q ≠ r := fun hqr => h (by rw [← addr_of_regAt ha, ← addr_of_regAt hb, hqr])
      rw [regWrite_of_regAt ha, regRead_of_regAt hb, regRead_of_regAt hb, regValue_regStore_ne hqr]

theorem regWrite_ignored {a : RegAddr} (h : regAt a = none ∨ 0x80 ≤ a.toNat) (v : Half) (s : State) :
    regWrite a v s = s := by
  cases ha : regAt a with
  | none => exact regWrite_reserved ha v s
  | some r =>
    have hhigh : 0x80 ≤ r.addr.toNat := by simpa [ha, addr_of_regAt ha] using h
    rw [regWrite_of_regAt ha, regStore_of_le_addr hhigh]

/-- Settles O20: the register at the address by what it stores, the others by the address map, the rest by the
frame. -/
theorem regWriteStoresOneRegister : Obligations.RegWriteStoresOneRegister := by
  intro a v s
  have hframe := regWrite_settingsOnly a v s
  refine ⟨regWrite a v s, rfl, fun r hr => ?_, fun b hb => regRead_regWrite_ne hb v s, fun h => regWrite_ignored h v s,
    hframe.cfg, hframe.ms, hframe.seq, hframe.msHiLatch, hframe.advCount, hframe.trace, hframe.port,
    fun c => ⟨hframe.rt c, hframe.out c⟩⟩
  rw [regRead_of_regAt hr, regWrite_of_regAt hr, regValue_regStore]

end Sys2Proof.Machine
end

section
/-! The decoder against the opcode map: a word under a row decodes to the row's command, an accepted word is the word
of its command, and every other word is reserved (30_encoding.md R100 to R111). -/

namespace Sys2Proof.Machine

/-! ### Fields under a mask -/

theorem field_and (v w : Word) (lo len : Nat) : field (v &&& w) lo len = field v lo len &&& field w lo len :=
  BitVec.extractLsb'_and

/-- A field that the mask covers is the field of the masked value. -/
theorem field_of_masked {w mask value : Word} (h : w &&& mask = value) (lo len : Nat)
    (hmask : field mask lo len = BitVec.allOnes len) : field w lo len = field value lo len := by
  rw [← h, field_and, hmask, BitVec.and_allOnes]

theorem field_one_eq_one_iff (w : Word) (k : Nat) : field w k 1 = 1#1 ↔ w.getLsbD k = true := by
  simp [field, BitVec.eq_of_getLsbD_eq_iff]

/-- Neighbouring fields append to one field. -/
theorem field_append {w : Word} {hi lo m n : Nat} (h : hi = lo + n) :
    field w hi m ++ field w lo n = field w lo (m + n) :=
  BitVec.extractLsb'_append_extractLsb'_eq_extractLsb' h

theorem field_whole (w : Word) : field w 0 32 = w := BitVec.extractLsb'_eq_self

/-! ### A word is its fields, appended (30_encoding.md R101 to R104) -/

theorem formatV_fields (w : Word) :
    field w 28 4 ++ field w 24 4 ++ field w 23 1 ++ field w 16 7 ++ field w 15 1 ++ field w 8 7 ++ field w 0 8 = w := by
  simp only [field_append]
  exact field_whole w

theorem formatB_fields (w : Word) : field w 28 4 ++ field w 24 4 ++ field w 14 10 ++ field w 0 14 = w := by
  simp only [field_append]
  exact field_whole w

theorem formatS_fields (w : Word) : field w 28 4 ++ field w 24 4 ++ field w 0 24 = w := by
  simp only [field_append]
  exact field_whole w

theorem formatR_fields (w : Word) : field w 28 4 ++ field w 24 4 ++ field w 16 8 ++ field w 0 16 = w := by
  simp only [field_append]
  exact field_whole w

/-! ### Must-be-0 bits -/

theorem append_eq_zero_iff {m n : Nat} (x : BitVec m) (y : BitVec n) :
    x ++ y = 0#(m + n) ↔ x = 0#m ∧ y = 0#n := by
  simp [← BitVec.toNat_inj]

theorem whenZero_eq_ok_iff {n : Nat} {zero : BitVec n} {i j : Instr} :
    whenZero zero i = .ok j ↔ zero = 0#n ∧ i = j := by
  rw [whenZero]
  split <;> simp_all

/-- Format V accepts the words whose must-be-0 fields are 0 (30_encoding.md R101). -/
theorem decodeVoice_eq_ok_iff {make : MidiChannel → Data7 → Data7 → Instr} {w : Word} {i : Instr} :
    decodeVoice make w = .ok i ↔ (field w 23 1 = 0#1 ∧ field w 15 1 = 0#1 ∧ field w 0 8 = 0#8) ∧
      make (field w 24 4) (field w 16 7) (field w 8 7) = i := by
  rw [decodeVoice, whenZero_eq_ok_iff, append_eq_zero_iff, append_eq_zero_iff, and_assoc (a := field w 23 1 = 0#1)]

/-! ### The rows of the opcode map -/

/-- The mask of format V covers the must-be-0 fields, so a word under it has those of its match. -/
theorem decodeVoice_of_masked (make : MidiChannel → Data7 → Data7 → Instr) {w value : Word}
    (h : w &&& 0xF08080FF = value)
    (hvalue : field value 23 1 = 0#1 ∧ field value 15 1 = 0#1 ∧ field value 0 8 = 0#8) :
    decodeVoice make w = .ok (make (field w 24 4) (field w 16 7) (field w 8 7)) := by
  obtain ⟨h23, h15, h0⟩ := hvalue
  exact decodeVoice_eq_ok_iff.2 ⟨⟨(field_of_masked h 23 1 rfl).trans h23, (field_of_masked h 15 1 rfl).trans h15,
    (field_of_masked h 0 8 rfl).trans h0⟩, rfl⟩

/-- Settles O1: a mask covers the opcode and the must-be-0 fields, and the other fields are the operands. -/
theorem opcodeMapDecodesEachRow : Obligations.OpcodeMapDecodesEachRow := by
  intro w
  have whole {value : Word} (h : w &&& 0xFFFFFFFF = value) : w = value := BitVec.and_allOnes.symm.trans h
  refine ⟨fun h => whole h ▸ rfl, fun h => whole h ▸ rfl, fun h => whole h ▸ rfl, fun h => ?poll,
    fun h => ?allNotesOff, fun h => ?regWrite, fun h => ?regRead, fun h => ?noteOff, fun h => ?noteOn, fun h => ?cc,
    fun h => ?pbend, fun h => whole h ▸ rfl, fun h => whole h ▸ rfl, fun h => whole h ▸ rfl, fun h => whole h ▸ rfl⟩
  case poll =>
    have hop : field w 28 4 = 0x0#4 := field_of_masked h 28 4 rfl
    have hsub : field w 24 4 = 0x3#4 := field_of_masked h 24 4 rfl
    have hzero : field w 2 22 = 0#22 := field_of_masked h 2 22 rfl
    simp [decode, decodeSystem, modeOfBit, field_one_eq_one_iff, hop, hsub, hzero]
  case allNotesOff =>
    have hop : field w 28 4 = 0x0#4 := field_of_masked h 28 4 rfl
    have hsub : field w 24 4 = 0x4#4 := field_of_masked h 24 4 rfl
    have hzero : field w 1 23 = 0#23 := field_of_masked h 1 23 rfl
    simp [decode, decodeSystem, chanOfBit, field_one_eq_one_iff, hop, hsub, hzero]
  case regWrite =>
    rw [decode, field_of_masked h 28 4 rfl, field_of_masked h 24 4 rfl]
    rfl
  case regRead =>
    rw [decode, field_of_masked h 28 4 rfl, field_of_masked h 24 4 rfl, field_of_masked h 0 16 rfl]
    rfl
  case noteOff =>
    rw [decode, field_of_masked h 28 4 rfl]
    exact decodeVoice_of_masked .noteOff h (by decide)
  case noteOn =>
    rw [decode, field_of_masked h 28 4 rfl]
    exact decodeVoice_of_masked .noteOn h (by decide)
  case cc =>
    rw [decode, field_of_masked h 28 4 rfl]
    exact decodeVoice_of_masked .cc h (by decide)
  case pbend =>
    rw [decode, field_of_masked h 28 4 rfl, field_of_masked h 14 10 rfl]
    rfl

/-! ### Accepted words -/

theorem modeOfBit_bit : ∀ b : BitVec 1, (modeOfBit b).bit = b := by decide

theorem chanOfBit_bit : ∀ b : BitVec 1, (chanOfBit b).bit = b := by decide

theorem ofBool_eq_one : ∀ b : BitVec 1, BitVec.ofBool (b = 1#1) = b := by decide

theorem encodeSystem_of_fields {w : Word} {op sub : BitVec 4} (hop : field w 28 4 = op) (hsub : field w 24 4 = sub)
    (hzero : field w 0 24 = 0#24) : encodeSystem op sub = w := by
  have hw := formatS_fields w
  rwa [hop, hsub, hzero] at hw

theorem encodeVoice_of_fields {w : Word} {op : BitVec 4} (hop : field w 28 4 = op)
    (hzero : field w 23 1 = 0#1 ∧ field w 15 1 = 0#1 ∧ field w 0 8 = 0#8) :
    encodeVoice op (field w 24 4) (field w 16 7) (field w 8 7) = w := by
  obtain ⟨h23, h15, h0⟩ := hzero
  have hw := formatV_fields w
  rwa [hop, h23, h15, h0] at hw

/-- Format S with major opcode 0x0. -/
theorem encode_of_decodeSystem {w : Word} {i : Instr} (hop : field w 28 4 = 0x0#4) (h : decodeSystem w = .ok i) :
    encode i = w := by
  unfold decodeSystem at h
  split at h
  case h_1 hsub | h_2 hsub | h_3 hsub =>
    obtain ⟨hzero, rfl⟩ := whenZero_eq_ok_iff.1 h
    exact encodeSystem_of_fields hop (BitVec.eq_of_toNat_eq hsub) hzero
  case h_4 hsub =>
    obtain ⟨hzero, rfl⟩ := whenZero_eq_ok_iff.1 h
    have hsub : field w 24 4 = 0x3#4 := BitVec.eq_of_toNat_eq hsub
    have hw : field w 28 4 ++ field w 24 4 ++ field w 2 22 ++ field w 1 1 ++ field w 0 1 = w := by
      simp only [field_append]
      exact field_whole w
    rwa [encode, modeOfBit_bit, ofBool_eq_one, ← hop, ← hsub, ← hzero]
  case h_5 hsub =>
    obtain ⟨hzero, rfl⟩ := whenZero_eq_ok_iff.1 h
    have hsub : field w 24 4 = 0x4#4 := BitVec.eq_of_toNat_eq hsub
    have hw : field w 28 4 ++ field w 24 4 ++ field w 1 23 ++ field w 0 1 = w := by
      simp only [field_append]
      exact field_whole w
    rwa [encode, chanOfBit_bit, ← hop, ← hsub, ← hzero]
  case h_6 => exact nomatch h

/-- Format S with major opcode 0xF. -/
theorem encode_of_decodeRealtime {w : Word} {i : Instr} (hop : field w 28 4 = 0xF#4)
    (h : decodeRealtime w = .ok i) : encode i = w := by
  unfold decodeRealtime at h
  split at h
  case h_1 hsub | h_2 hsub | h_3 hsub | h_4 hsub =>
    obtain ⟨hzero, rfl⟩ := whenZero_eq_ok_iff.1 h
    exact encodeSystem_of_fields hop (BitVec.eq_of_toNat_eq hsub) hzero
  case h_5 => exact nomatch h

/-- An accepted word is the word of the command it decodes to: its fields, appended. -/
theorem encode_of_decode {w : Word} {i : Instr} (h : decode w = .ok i) : encode i = w := by
  unfold decode at h
  split at h
  case h_1 hop => exact encode_of_decodeSystem (BitVec.eq_of_toNat_eq hop) h
  case h_2 hop =>
    obtain ⟨hzero, rfl⟩ := whenZero_eq_ok_iff.1 h
    have hop : field w 28 4 = 0x1#4 := BitVec.eq_of_toNat_eq hop
    have hw := formatR_fields w
    rwa [hop, hzero] at hw
  case h_3 hop =>
    obtain ⟨hzero, rfl⟩ := whenZero_eq_ok_iff.1 h
    obtain ⟨hhigh, hlow⟩ := (append_eq_zero_iff _ _).1 hzero
    have hop : field w 28 4 = 0x2#4 := BitVec.eq_of_toNat_eq hop
    have hw := formatR_fields w
    rwa [hop, hhigh, hlow] at hw
  case h_4 hop | h_5 hop | h_6 hop =>
    obtain ⟨hzero, rfl⟩ := decodeVoice_eq_ok_iff.1 h
    exact encodeVoice_of_fields (BitVec.eq_of_toNat_eq hop) hzero
  case h_7 hop =>
    obtain ⟨hzero, rfl⟩ := whenZero_eq_ok_iff.1 h
    have hop : field w 28 4 = 0xE#4 := BitVec.eq_of_toNat_eq hop
    have hw := formatB_fields w
    rwa [hop, hzero] at hw
  case h_8 hop => exact encode_of_decodeRealtime (BitVec.eq_of_toNat_eq hop) h
  case h_9 => exact nomatch h

/-- Settles O3: each field of an encoded command holds what was put there. -/
theorem decodeOfEncodeGivesTheCommand : Obligations.DecodeOfEncodeGivesTheCommand := decode_encode

/-- Settles O4: an accepted word is its fields, appended. -/
theorem encodeOfDecodeGivesTheWord : Obligations.EncodeOfDecodeGivesTheWord := fun _ _ => encode_of_decode

/-- Settles O5: the eleven words are those of their commands, and every command decodes from its word. -/
theorem workedEncodingsDecode : Obligations.WorkedEncodingsDecode := by
  intro p hp
  have hword : encode p.2 = p.1 := by
    revert p
    decide
  exact ⟨hword ▸ decode_encode p.2, hword⟩

/-! ### Reserved words -/

theorem mnemonic_mem_all (m : Mnemonic) : m ∈ Mnemonic.all := by cases m <;> decide

/-- The word of a command is under the command's row (30_encoding.md R106). -/
theorem encode_hits (i : Instr) : i.mnemonic.row.hits (encode i) = true := by
  cases i with
  | nop => exact Laws.EncodingHitsRow.nop
  | tick => exact Laws.EncodingHitsRow.tick
  | progress => exact Laws.EncodingHitsRow.progress
  | poll sw sync => exact Laws.EncodingHitsRow.poll sw sync
  | allNotesOff c => exact Laws.EncodingHitsRow.allNotesOff c
  | regWrite a v => exact Laws.EncodingHitsRow.regWrite a v
  | regRead a => exact Laws.EncodingHitsRow.regRead a
  | noteOff ch note vel => exact Laws.EncodingHitsRow.noteOff ch note vel
  | noteOn ch note vel => exact Laws.EncodingHitsRow.noteOn ch note vel
  | cc ch num val => exact Laws.EncodingHitsRow.cc ch num val
  | pbend ch amount => exact Laws.EncodingHitsRow.pbend ch amount
  | clock => exact Laws.EncodingHitsRow.clock
  | start => exact Laws.EncodingHitsRow.start
  | cont => exact Laws.EncodingHitsRow.cont
  | stop => exact Laws.EncodingHitsRow.stop

/-- A word under no row is rejected: an accepted word is the word of a command, which is under its row. -/
theorem decode_of_no_row {w : Word} (h : ∀ m ∈ Mnemonic.all, m.row.hits w = false) : ∃ r, decode w = .error r := by
  cases hdecode : decode w with
  | error r => exact ⟨r, rfl⟩
  | ok i =>
    have hhits := encode_hits i
    rw [encode_of_decode hdecode, h _ (mnemonic_mem_all _)] at hhits
    exact nomatch hhits

/-- A reserved word is taken and changes nothing (30_encoding.md R107). -/
theorem step_present_reserved {w : Word} {r : Reserved} (h : decode w = .error r) (s : State) :
    step (present w s) = .next s := by
  simp [step, h, execReserved]

theorem and_mask_of_hits {w : Word} {m : Mnemonic} (h : m.row.hits w = true) : w &&& m.row.mask = m.row.value :=
  beq_iff_eq.1 h

/-- Every mask covers the major opcode. -/
theorem op_of_hits {w : Word} {m : Mnemonic} (h : m.row.hits w = true) : field w 28 4 = field m.row.value 28 4 :=
  field_of_masked (and_mask_of_hits h) 28 4 (by cases m <;> rfl)

/-- The masks of format S cover the sub-opcode. -/
theorem sub_of_hits {w : Word} {m : Mnemonic} (h : m.row.hits w = true) (hsystem : (field w 28 4).toNat ∈ [0x0, 0xF]) :
    field w 24 4 = field m.row.value 24 4 := by
  rw [op_of_hits h] at hsystem
  refine field_of_masked (and_mask_of_hits h) 24 4 ?_
  revert hsystem
  cases m <;> decide

/-- The opcodes that no row has (30_encoding.md R107). -/
def UnusedOpcode (op sub : BitVec 4) : Prop :=
  op.toNat ∈ [0x3, 0x4, 0x5, 0x6, 0x7, 0xA, 0xC, 0xD] ∨ (op = 0x0#4 ∧ 5 ≤ sub.toNat) ∨
    (op = 0xF#4 ∧ sub.toNat ∉ [0x8, 0xA, 0xB, 0xC])

theorem not_unusedOpcode_of_hits {w : Word} {m : Mnemonic} (h : m.row.hits w = true) :
    ¬ UnusedOpcode (field w 28 4) (field w 24 4) := by
  rintro (hop | ⟨hop, hsub⟩ | ⟨hop, hsub⟩)
  · rw [op_of_hits h] at hop
    revert hop
    cases m <;> decide
  all_goals
    rw [sub_of_hits h (by simp [hop])] at hsub
    rw [op_of_hits h] at hop
    revert hop hsub
    cases m <;> decide

/-- The bits of a word that hold its opcode: the major opcode, and the sub-opcode in format S
(30_encoding.md R100, R103). -/
def opcodeMask (w : Word) : Word := if (field w 28 4).toNat ∈ [0x0, 0xF] then 0xFF000000 else 0xF0000000

/-- A mask covers the opcode, so a word under a row has the row's opcode. -/
theorem opcode_of_hits {w : Word} {m : Mnemonic} (h : m.row.hits w = true) :
    w &&& opcodeMask w = m.row.value &&& opcodeMask w := by
  have hcover : m.row.mask &&& opcodeMask w = opcodeMask w := by
    rw [opcodeMask, op_of_hits h]
    cases m <;> rfl
  calc w &&& opcodeMask w = w &&& m.row.mask &&& opcodeMask w := by rw [BitVec.and_assoc, hcover]
    _ = m.row.value &&& opcodeMask w := by rw [and_mask_of_hits h]

/-- No two rows have the same opcode. -/
theorem eq_of_opcode_eq {m n : Mnemonic}
    (h : m.row.value &&& opcodeMask n.row.value = n.row.value &&& opcodeMask n.row.value) : m = n :=
  (by decide : ∀ m ∈ Mnemonic.all, ∀ n ∈ Mnemonic.all,
    m.row.value &&& opcodeMask n.row.value = n.row.value &&& opcodeMask n.row.value → m = n)
    m (mnemonic_mem_all m) n (mnemonic_mem_all n) h

/-- Only the row with a word's opcode can be the word's row. -/
theorem eq_of_hits {w : Word} {m n : Mnemonic} (hm : w &&& opcodeMask w = m.row.value &&& opcodeMask w)
    (hn : n.row.hits w = true) : m = n := by
  have hmask : opcodeMask w = opcodeMask n.row.value := by rw [opcodeMask, opcodeMask, op_of_hits hn]
  apply eq_of_opcode_eq
  rw [← hmask]
  exact hm.symm.trans (opcode_of_hits hn)

/-- Settles O2: a word under no row is rejected, an unused opcode is no row's, and no row but the one with the word's
opcode can be the word's. -/
theorem reservedWordExecutesAsNop : Obligations.ReservedWordExecutesAsNop := by
  refine ⟨fun w s rest hport hno => ?step, fun w hunused m _ => ?opcode, fun w => ?mustBeZero⟩
  case step =>
    obtain ⟨r, hr⟩ := decode_of_no_row hno
    have hstep : step s = .next { s with port := rest } :=
      (congrArg step (present_take hport)).symm.trans (step_present_reserved hr { s with port := rest })
    exact ⟨hstep, hstep⟩
  case opcode => exact Bool.eq_false_iff.2 fun hhits => not_unusedOpcode_of_hits hhits hunused
  case mustBeZero =>
    intro opcode m _ hopcode hmiss n _
    refine Bool.eq_false_iff.2 fun hhits => ?_
    obtain rfl := eq_of_hits hopcode hhits
    exact Bool.eq_false_iff.1 hmiss hhits

end Sys2Proof.Machine
end

section
/-! The latest-notes ring and the held-note queries (40_cv_channel.md R135 to R138). -/

namespace Sys2Proof.Machine

/-! ### The latest-notes ring -/

/-- The entry `i` back, with no integer in its index (40_cv_channel.md R136). -/
theorem histCell_eq (r : Runtime) {i : Nat} (hi : i < 20) :
    histCell r i = r.histBuf[(r.histHead.toNat + 19 - i) % 20] := by
  have hcell : (((r.histHead.toNat : Int) + 19 - i) % 20).toNat = (r.histHead.toNat + 19 - i) % 20 := by omega
  simp only [histCell, hcell]

theorem histPut_histHead_toNat (note : Data7) (r : Runtime) :
    (histPut note r).histHead.toNat = (r.histHead.toNat + 1) % 20 := by
  simp only [histPut, BitVec.toNat_ofNat]
  omega

theorem histPut_histCnt_toNat (note : Data7) (r : Runtime) :
    (histPut note r).histCnt.toNat = min 20 (r.histCnt.toNat + 1) := by
  simp only [histPut, BitVec.toNat_ofNat]
  omega

/-- After a put, the entry `i` back is read from the old ring with the note in the head's cell. -/
theorem histCell_histPut (note : Data7) (r : Runtime) {i : Nat} (hi : i < 20) :
    histCell (histPut note r) i =
      if r.histHead.toNat % 20 = (r.histHead.toNat + 20 - i) % 20 then note
      else r.histBuf[(r.histHead.toNat + 20 - i) % 20] := by
  have hcell : ((r.histHead.toNat + 1) % 20 + 19 - i) % 20 = (r.histHead.toNat + 20 - i) % 20 := by omega
  simp only [histCell_eq _ hi, histPut_histHead_toNat, hcell]
  exact Vector.getElem_set (by omega) (by omega)

theorem histCell_histPut_zero (note : Data7) (r : Runtime) : histCell (histPut note r) 0 = note := by
  rw [histCell_histPut note r (by omega), if_pos (by omega)]

theorem histCell_histPut_succ (note : Data7) (r : Runtime) {i : Nat} (hi : i < 19) :
    histCell (histPut note r) (i + 1) = histCell r i := by
  have hcell : r.histHead.toNat + 20 - (i + 1) = r.histHead.toNat + 19 - i := by omega
  rw [histCell_histPut note r (by omega), if_neg (by omega), histCell_eq r (by omega)]
  simp only [hcell]

/-- Settles O32: the head moves on by one cell, so every entry stands one further back, and the new note stands in
the cell that the head left. -/
theorem historyPutMakesTheNoteNewest : Obligations.HistoryPutMakesTheNoteNewest := fun r note =>
  ⟨histCell_histPut_zero note r, fun _ => histCell_histPut_succ note r, histPut_histHead_toNat note r,
    histPut_histCnt_toNat note r, rfl⟩

/-! ### The newest held entry -/

/-- `latest` looks for the least distance back at which a held note stands (40_cv_channel.md R136). -/
theorem latest_eq_map (r : Runtime) :
    latest r = ((List.range r.histCnt.toNat).find? fun i => isHeld r.held (histCell r i)).map (histCell r) :=
  List.find?_map

theorem latest_eq_some_iff (r : Runtime) (n : Data7) :
    latest r = some n ↔
      ∃ i, i < r.histCnt.toNat ∧ histCell r i = n ∧ isHeld r.held n = true ∧
        ∀ j, j < i → isHeld r.held (histCell r j) = false := by
  simp only [latest_eq_map, Option.map_eq_some_iff, List.find?_range_eq_some, List.mem_range, Bool.not_eq_true']
  constructor
  · rintro ⟨i, ⟨hheld, hi, hbefore⟩, rfl⟩
    exact ⟨i, hi, rfl, hheld, hbefore⟩
  · rintro ⟨i, hi, rfl, hheld, hbefore⟩
    exact ⟨i, ⟨hheld, hi, hbefore⟩, rfl⟩

theorem latest_eq_none_iff (r : Runtime) :
    latest r = none ↔ ∀ i, i < r.histCnt.toNat → isHeld r.held (histCell r i) = false := by
  simp only [latest_eq_map, Option.map_eq_none_iff, List.find?_range_eq_none, Bool.not_eq_true']

/-- Settles O33: the search is from the newest entry back, so what it finds first is the newest held. -/
theorem latestIsTheNewestHeldEntry : Obligations.LatestIsTheNewestHeldEntry := fun r n =>
  ⟨latest_eq_some_iff r n, latest_eq_none_iff r, fun i hi => by
    rw [histCell_eq r hi, Vector.getElem?_eq_getElem (by omega)]⟩

/-! ### The extreme held notes -/

/-- A property of every note below `k + 1` is one of every note below `k` and of `k`. -/
theorem forall_note_lt_succ {P : Data7 → Prop} {k : Nat} (hk : k < 128) :
    (∀ m : Data7, m.toNat < k + 1 → P m) ↔ (∀ m : Data7, m.toNat < k → P m) ∧ P (BitVec.ofNat 7 k) := by
  have htop : (BitVec.ofNat 7 k).toNat = k := by simp; omega
  refine ⟨fun h => ⟨fun m hm => h m (by omega), h _ (by omega)⟩, fun ⟨hlow, hlast⟩ m hm => ?_⟩
  rcases Nat.lt_succ_iff_lt_or_eq.1 hm with hlt | heq
  · exact hlow m hlt
  · obtain rfl : BitVec.ofNat 7 k = m := BitVec.eq_of_toNat_eq (htop.trans heq.symm)
    exact hlast

theorem held_eq_zero_iff (held : BitVec 128) : held = 0 ↔ ∀ m : Data7, isHeld held m = false := by
  constructor
  · rintro rfl m
    simp [isHeld]
  · intro h
    apply BitVec.eq_of_getLsbD_eq
    intro i hi
    simpa [isHeld, Nat.mod_eq_of_lt hi] using h (BitVec.ofNat 7 i)

/-- What is said of all the notes below 128 is said of all the notes. -/
theorem forall_note_lt_128 {P : Data7 → Prop} : (∀ m : Data7, m.toNat < 128 → P m) ↔ ∀ m, P m :=
  ⟨fun h m => h m m.isLt, fun h m _ => h m⟩

/-- The bit of a note, by its number. -/
theorem isHeld_ofNat (held : BitVec 128) {k : Nat} (hk : k < 128) :
    isHeld held (BitVec.ofNat 7 k) = held.getLsbD k := by
  simp [isHeld, Nat.mod_eq_of_lt hk]

section
variable {held : BitVec 128} {k : Nat} {n : Data7}

theorem highestBelow_eq_none_iff (hk : k ≤ 128) :
    highestBelow held k = none ↔ ∀ m : Data7, m.toNat < k → isHeld held m = false := by
  induction k with
  | zero => simp [highestBelow]
  | succ k ih =>
    rw [forall_note_lt_succ hk, ← ih (by omega), isHeld_ofNat held hk, highestBelow]
    cases held.getLsbD k <;> simp

theorem lowestBelow_eq_none_iff (hk : k ≤ 128) :
    lowestBelow held k = none ↔ ∀ m : Data7, m.toNat < k → isHeld held m = false := by
  induction k with
  | zero => simp [lowestBelow]
  | succ k ih =>
    rw [forall_note_lt_succ hk, ← ih (by omega), isHeld_ofNat held hk, lowestBelow]
    cases lowestBelow held k <;> cases held.getLsbD k <;> simp

/-- The search from the top down answers a held note with none above it. -/
theorem highestBelow_sound (hk : k ≤ 128) (h : highestBelow held k = some n) :
    isHeld held n = true ∧ ∀ m : Data7, m.toNat < k → isHeld held m = true → m ≤ n := by
  induction k with
  | zero => simp [highestBelow] at h
  | succ k ih =>
    rw [highestBelow] at h
    split at h
    next htop =>
      obtain rfl := Option.some.inj h
      refine ⟨(isHeld_ofNat held hk).trans htop, fun m hm _ => ?_⟩
      rw [BitVec.le_def, BitVec.toNat_ofNat, Nat.mod_eq_of_lt hk]
      omega
    next htop =>
      obtain ⟨hheld, hlow⟩ := ih (by omega) h
      exact ⟨hheld, (forall_note_lt_succ hk).2 ⟨hlow, fun hlast => absurd hlast (by rwa [isHeld_ofNat held hk])⟩⟩

/-- The search from the bottom up answers a held note with none below it. -/
theorem lowestBelow_sound (hk : k ≤ 128) (h : lowestBelow held k = some n) :
    n.toNat < k ∧ isHeld held n = true ∧ ∀ m : Data7, m.toNat < k → isHeld held m = true → n ≤ m := by
  induction k with
  | zero => simp [lowestBelow] at h
  | succ k ih =>
    have htop : (BitVec.ofNat 7 k).toNat = k := by rw [BitVec.toNat_ofNat, Nat.mod_eq_of_lt hk]
    rw [lowestBelow] at h
    split at h
    next m hm =>
      obtain rfl := Option.some.inj h
      obtain ⟨hlt, hheld, hlow⟩ := ih (by omega) hm
      refine ⟨by omega, hheld, (forall_note_lt_succ hk).2 ⟨hlow, fun _ => ?_⟩⟩
      rw [BitVec.le_def, htop]
      omega
    next hnone =>
      split at h
      next hheld =>
        obtain rfl := Option.some.inj h
        have hbelow := (lowestBelow_eq_none_iff (by omega)).1 hnone
        exact ⟨by omega, (isHeld_ofNat held hk).trans hheld,
          (forall_note_lt_succ hk).2 ⟨fun m hm hm' => absurd hm' (by simp [hbelow m hm]), fun _ => BitVec.le_refl _⟩⟩
      next => cases h

end

/-- A query that answers held notes only, each extreme in an order `R`, and that answers whenever a note is held, is
decided by that: an extreme is the only one. -/
theorem eq_some_iff_of_extreme {held : BitVec 128} {o : Option Data7} {R : Data7 → Data7 → Prop}
    (antisymm : ∀ m n, R m n → R n m → m = n)
    (sound : ∀ n, o = some n → isHeld held n = true ∧ ∀ m, isHeld held m = true → R m n)
    (found : o = none → ∀ m, isHeld held m = false) (n : Data7) :
    o = some n ↔ isHeld held n = true ∧ ∀ m, isHeld held m = true → R m n := by
  refine ⟨sound n, fun ⟨hheld, hall⟩ => ?_⟩
  cases ho : o with
  | none => exact absurd hheld (by simp [found ho n])
  | some m =>
    obtain ⟨hmheld, hmall⟩ := sound m ho
    rw [antisymm m n (hall m hmheld) (hmall n hheld)]

theorem highest_eq_none_iff (r : Runtime) : highest r = none ↔ ∀ m, isHeld r.held m = false :=
  (highestBelow_eq_none_iff (le_refl 128)).trans forall_note_lt_128

theorem lowest_eq_none_iff (r : Runtime) : lowest r = none ↔ ∀ m, isHeld r.held m = false :=
  (lowestBelow_eq_none_iff (le_refl 128)).trans forall_note_lt_128

theorem highest_eq_some_iff (r : Runtime) (n : Data7) :
    highest r = some n ↔ isHeld r.held n = true ∧ ∀ m, isHeld r.held m = true → m ≤ n :=
  eq_some_iff_of_extreme (R := fun m n => m ≤ n) (fun _ _ => BitVec.le_antisymm)
    (fun _ hn => (highestBelow_sound (le_refl 128) hn).imp_right forall_note_lt_128.1)
    (highest_eq_none_iff r).1 n

theorem lowest_eq_some_iff (r : Runtime) (n : Data7) :
    lowest r = some n ↔ isHeld r.held n = true ∧ ∀ m, isHeld r.held m = true → n ≤ m :=
  eq_some_iff_of_extreme (R := fun m n => n ≤ m) (fun _ _ hmn hnm => BitVec.le_antisymm hnm hmn)
    (fun _ hn => (lowestBelow_sound (le_refl 128) hn).2.imp_right forall_note_lt_128.1)
    (lowest_eq_none_iff r).1 n

/-- Settles O34: each search answers an extreme held note, and nothing only when no note is held. -/
theorem highestAndLowestAreTheExtremeHeldNotes : Obligations.HighestAndLowestAreTheExtremeHeldNotes := fun r =>
  ⟨highest_eq_some_iff r, (highest_eq_none_iff r).trans (held_eq_zero_iff r.held).symm,
    lowest_eq_some_iff r, (lowest_eq_none_iff r).trans (held_eq_zero_iff r.held).symm⟩

end Sys2Proof.Machine
end

section
/-! The note operations of a channel as whole next states (40_cv_channel.md R131 to R146). -/

namespace Sys2Proof.Machine

/-! ### A channel's step as a record -/

/-- A step of channel `c` is known whole from the channel and the trace that it leaves. -/
theorem ChanStep.eq_of {c : Chan} {s t : State} {ch : Channel} {es : List OutEvent} (h : ChanStep c s t)
    (hchan : t.chan c = ch) (htrace : t.trace = es) : t = { s.setChan c ch with trace := es } := by
  have hsame : ∀ d, t.chan d = (s.setChan c ch).chan d := fun d => by
    rw [chan_setChan]
    split
    next hd => rw [hd, hchan]
    next hd => exact h.other d hd
  exact State.eq_of_fields (by simpa using h.cfg) (by simpa using h.ms)
    (fun d => (hsame d).trans (by cases d <;> rfl)) (by simpa using h.seq) (by simpa using h.routing)
    (by simpa using h.msHiLatch) (by simpa using h.advCount) htrace (by simpa using h.port)

theorem lineClear_eq (c : Chan) (s : State) :
    lineClear c s =
      { s.setChan c { s.chan c with out := { (s.chan c).out with trigLine := false, trigCnt := 0 } } with
        trace := s.trace ++ [.line c false] } :=
  (lineClear_step c s).eq_of (lineClear_chan_self c s) (lineClear_trace c s)

/-! ### `all_notes_off` -/

/-- Settles O38: only the Gate mode touches the line. -/
theorem allNotesOffClearsTheChannel : Obligations.AllNotesOffClearsTheChannel := by
  intro c s ch gate
  refine congrArg Host.Outcome.next ((allNotesOff_step c s).eq_of ?_ ?_)
  all_goals by_cases hgate : (s.chan c).set.trigMode = .gate <;> simp [allNotesOff, ch, gate, hgate]

/-! ### `note_off` -/

/-- The re-sound is the note-on of the selected note (40_cv_channel.md R140). -/
theorem resound_eq (c : Chan) (vel : Data7) (s : State) :
    resound c vel s =
      (selectNext (s.chan c).set.retrigMode (s.chan c).rt).elim s fun n => noteOn c n vel false false s := by
  unfold resound
  cases selectNext (s.chan c).set.retrigMode (s.chan c).rt <;> rfl

/-- Settles O37: the model's selection and re-sound are the statement's, and a re-sound leaves the trigger mode. -/
theorem noteOffReleasesAndResounds : Obligations.NoteOffReleasesAndResounds := by
  intro c note vel s released next played
  have hset : (released.chan c).set = (s.chan c).set := by simp [released]
  have hnext : selectNext (released.chan c).set.retrigMode (released.chan c).rt = next := by
    rw [hset]
    rfl
  have hplayed : resound c vel released = played := by
    rw [resound_eq, hnext]
    clear_value next
    cases next <;> rfl
  have hmode : (played.chan c).set.trigMode = (s.chan c).set.trigMode := by
    rw [← hplayed, (resound_step c vel released).set, hset]
  have hoff : noteOff c note vel s =
      if (played.chan c).rt.held = 0 ∧ (played.chan c).set.trigMode = .gate then lineClear c played else played := by
    rw [← hplayed]
    rfl
  rw [hoff, hmode, lineClear_eq]

/-! ### `note_on` -/

theorem dacFrame_eq (cfg : Config) (c : Chan) (code : BitVec 12) :
    dacFrame cfg c code = (if c = .a then cfg.dacCfgA else cfg.dacCfgB) ++ code := by
  cases c <;> rfl

/-- The note from which a glide to `note` starts (40_cv_channel.md R131). -/
def glideStart (r : Runtime) (note : Data7) : Data7 := if r.haveNote then r.endNote else note

theorem noteOnRt_eq (ms : BitVec 32) (note : Data7) (addToHistory : Bool) (r : Runtime) :
    noteOnRt ms note addToHistory r =
      { r with
        held := holdNote r.held note
        histBuf := (if addToHistory then histPut note r else r).histBuf
        histHead := (if addToHistory then histPut note r else r).histHead
        histCnt := (if addToHistory then histPut note r else r).histCnt
        vib := 0
        tOn := ms
        startNote := glideStart r note
        endNote := note
        haveNote := true } := by
  cases addToHistory <;> rfl

/-- A glide of no duration or to the note it starts from is none: the code is written at once
(40_cv_channel.md R131, R132). -/
def soundsAtOnce (set : Settings) (start note : Data7) : Bool :=
  decide (slideDuration set start note = 0 ∨ start = note)

/-- The channel after the glide decision. -/
theorem beginNote_chan_self (c : Chan) (start note : Data7) (s : State) :
    let ch := s.chan c
    let now := soundsAtOnce ch.set start note
    (beginNote c start note s).chan c =
      { ch with
        rt := { ch.rt with
          sliding := !now
          slideT0 := if now then ch.rt.slideT0 else s.ms
          slideDur := if now then ch.rt.slideDur else slideDuration ch.set start note }
        out := { ch.out with
          dacCode :=
            if now then BitVec.ofInt 12 (midiToDacCode s.cfg ch.set note ch.rt.pb.toInt 0) else ch.out.dacCode } } := by
  intro ch now
  unfold beginNote
  split
  next h =>
    have hnow : now = true := decide_eq_true h
    simp [ch, hnow]
  next h =>
    have hnow : now = false := decide_eq_false h
    simp [ch, hnow]

@[simp] theorem beginNote_cfg (c : Chan) (start note : Data7) (s : State) : (beginNote c start note s).cfg = s.cfg :=
  (beginNote_step c start note s).cfg

theorem beginNote_trace (c : Chan) (start note : Data7) (s : State) :
    (beginNote c start note s).trace = s.trace ++
      if soundsAtOnce (s.chan c).set start note then
        [.dac c (dacFrame s.cfg c
          (BitVec.ofInt 12 (midiToDacCode s.cfg (s.chan c).set note (s.chan c).rt.pb.toInt 0)))]
      else [] := by
  simp only [beginNote, soundsAtOnce, decide_eq_true_eq]
  split <;> simp

/-- The velocity write of `note_on`, which it makes only when asked to (40_cv_channel.md R131). -/
theorem velWrite_ite_chan_self (c : Chan) (vel : Data7) (send : Bool) (s : State) :
    (if send then velWrite c vel s else s).chan c =
      { s.chan c with
        out := { (s.chan c).out with velDuty := if send then velDutyOf s.cfg vel else (s.chan c).out.velDuty } } := by
  cases send <;> simp

theorem velWrite_ite_trace (c : Chan) (vel : Data7) (send : Bool) (s : State) :
    (if send then velWrite c vel s else s).trace =
      s.trace ++ if send then [.vel c (velDutyOf s.cfg vel)] else [] := by
  cases send <;> simp

/-- The channel after the line is raised, register by register. -/
theorem emitTrig_chan_registers (c : Chan) (s : State) :
    let ch := s.chan c
    (emitTrig c s).chan c =
      { ch with
        out := { ch.out with
          trigLine := if ch.set.trigMode = .none then ch.out.trigLine else true
          trigCnt :=
            if ch.set.trigMode = .none then ch.out.trigCnt
            else if ch.set.trigMode = .gate then 0 else pulseTicks ch.set.trigLen } } := by
  rw [emitTrig_chan_self]
  cases h : (s.chan c).set.trigMode <;> simp [h]

/-- The channel after `note_on`, register by register (40_cv_channel.md R131). -/
theorem noteOn_chan_self (c : Chan) (note vel : Data7) (sendVelocity addToHistory : Bool) (s : State) :
    let ch := s.chan c
    let start := glideStart ch.rt note
    let now := soundsAtOnce ch.set start note
    let hist := if addToHistory then histPut note ch.rt else ch.rt
    (noteOn c note vel sendVelocity addToHistory s).chan c =
      { set := ch.set
        rt := { ch.rt with
          held := holdNote ch.rt.held note
          histBuf := hist.histBuf
          histHead := hist.histHead
          histCnt := hist.histCnt
          vib := 0
          tOn := s.ms
          startNote := start
          endNote := note
          haveNote := true
          sliding := !now
          slideT0 := if now then ch.rt.slideT0 else s.ms
          slideDur := if now then ch.rt.slideDur else slideDuration ch.set start note }
        out :=
          { dacCode :=
              if now then BitVec.ofInt 12 (midiToDacCode s.cfg ch.set note ch.rt.pb.toInt 0) else ch.out.dacCode
            velDuty := if sendVelocity then velDutyOf s.cfg vel else ch.out.velDuty
            trigLine := if ch.set.trigMode = .none then ch.out.trigLine else true
            trigCnt :=
              if ch.set.trigMode = .none then ch.out.trigCnt
              else if ch.set.trigMode = .gate then 0 else pulseTicks ch.set.trigLen } } := by
  simp only [noteOn, emitTrig_chan_registers, velWrite_ite_chan_self, beginNote_chan_self, updRt_chan_self,
    noteOnRt_eq, beginNote_cfg, updRt_cfg, updRt_ms]

/-- The events of `note_on`, in order: the DAC, the velocity, the line (40_cv_channel.md R131). -/
theorem noteOn_trace (c : Chan) (note vel : Data7) (sendVelocity addToHistory : Bool) (s : State) :
    let ch := s.chan c
    (noteOn c note vel sendVelocity addToHistory s).trace =
      s.trace
        ++ (if soundsAtOnce ch.set (glideStart ch.rt note) note then
              [.dac c (dacFrame s.cfg c (BitVec.ofInt 12 (midiToDacCode s.cfg ch.set note ch.rt.pb.toInt 0)))]
            else [])
        ++ (if sendVelocity then [.vel c (velDutyOf s.cfg vel)] else [])
        ++ (if ch.set.trigMode = .none then [] else [.line c true]) := by
  simp only [noteOn, emitTrig_trace, velWrite_ite_trace, velWrite_ite_chan_self, beginNote_trace,
    beginNote_chan_self, updRt_chan_self, noteOnRt_eq, beginNote_cfg, updRt_cfg, updRt_trace]

/-- Settles O35: the statement's start, duration and duty are the model's, written out. -/
theorem noteOnWritesItsChannelOnly : Obligations.NoteOnWritesItsChannelOnly := by
  intro c note vel sendVelocity addToHistory s ch start dur now code duty hist
  refine (noteOn_step c note vel sendVelocity addToHistory s).eq_of
    (noteOn_chan_self c note vel sendVelocity addToHistory s) ?_
  rw [noteOn_trace, dacFrame_eq]
  rfl

/-! ### A note played again -/

theorem midiToDacCode_range (cfg : Config) (set : Settings) (note : Data7) (pbv vibc : Int) :
    0 ≤ midiToDacCode cfg set note pbv vibc ∧ midiToDacCode cfg set note pbv vibc ≤ 4095 := by
  unfold midiToDacCode clamp
  omega

/-- A DAC code is stored whole, in 12 bits. -/
theorem ofInt_midiToDacCode_toNat (cfg : Config) (set : Settings) (note : Data7) (pbv vibc : Int) :
    ((BitVec.ofInt 12 (midiToDacCode cfg set note pbv vibc)).toNat : Int) = midiToDacCode cfg set note pbv vibc := by
  obtain ⟨hlow, hhigh⟩ := midiToDacCode_range cfg set note pbv vibc
  rw [BitVec.toNat_ofInt]
  omega

theorem soundsAtOnce_self (set : Settings) (note : Data7) : soundsAtOnce set note note = true :=
  decide_eq_true (.inr rfl)

/-- Playing the note that the channel already plays starts no glide and writes the note's code
(40_cv_channel.md R134). -/
theorem noteOn_same_note {c : Chan} {note : Data7} {s : State} (hhave : (s.chan c).rt.haveNote = true)
    (hend : (s.chan c).rt.endNote = note) (vel : Data7) (sendVelocity addToHistory : Bool) :
    let t := noteOn c note vel sendVelocity addToHistory s
    (t.chan c).rt.sliding = false ∧
      (t.chan c).out.dacCode =
        BitVec.ofInt 12 (midiToDacCode s.cfg (s.chan c).set note (s.chan c).rt.pb.toInt 0) := by
  have hstart : glideStart (s.chan c).rt note = note := by rw [glideStart, if_pos hhave, hend]
  simp [noteOn_chan_self, hstart, soundsAtOnce_self]

/-- A note that leaves the channel without a glide has written its code. -/
theorem noteOn_dacCode_of_not_sliding {c : Chan} {note vel : Data7} {sendVelocity addToHistory : Bool} {s : State}
    (h : ((noteOn c note vel sendVelocity addToHistory s).chan c).rt.sliding = false) :
    ((noteOn c note vel sendVelocity addToHistory s).chan c).out.dacCode =
      BitVec.ofInt 12 (midiToDacCode s.cfg (s.chan c).set note (s.chan c).rt.pb.toInt 0) := by
  rw [noteOn_chan_self] at h ⊢
  exact if_pos (by simpa using h)

/-- A note added to the history is put on the ring (40_cv_channel.md R131, R135). -/
theorem histCell_noteOn (c : Chan) (note vel : Data7) (sendVelocity : Bool) (s : State) (i : Nat) :
    histCell ((noteOn c note vel sendVelocity true s).chan c).rt i = histCell (histPut note (s.chan c).rt) i := by
  rw [noteOn_chan_self]
  rfl

/-- Settles O39: after the first note the channel plays it, with the same settings, bend and configuration. -/
theorem repeatedNoteWritesTheSameCode : Obligations.RepeatedNoteWritesTheSameCode := by
  intro c note vel s t u
  have hchan : t.chan c = _ := noteOn_chan_self c note vel true true s
  have hcode : midiToDacCode t.cfg (t.chan c).set note (t.chan c).rt.pb.toInt 0 =
      midiToDacCode s.cfg (s.chan c).set note (s.chan c).rt.pb.toInt 0 := by
    rw [(noteOn_step c note vel true true s).cfg, hchan]
  obtain ⟨hsliding, hdac⟩ := noteOn_same_note (s := t) (c := c) (note := note) (by rw [hchan]) (by rw [hchan])
    vel true true
  rw [hcode] at hdac
  have hnewest : histCell (u.chan c).rt 0 = note := by rw [histCell_noteOn, histCell_histPut_zero]
  have hsecond : histCell (u.chan c).rt 1 = note := by
    rw [histCell_noteOn, histCell_histPut_succ note _ (by omega), histCell_noteOn, histCell_histPut_zero]
  exact ⟨hsliding, by rw [hdac, ofInt_midiToDacCode_toNat],
    fun hfirst => hdac.trans (noteOn_dacCode_of_not_sliding hfirst).symm, hnewest, hsecond⟩

end Sys2Proof.Machine
end

section
/-! The release timer of the gate/trigger line over ticks (40_cv_channel.md R143, 45_system.md R291). -/

namespace Sys2Proof.Machine

/-- One tick counts a channel's release timer down and lowers the line when it reaches 0 (45_system.md R291). -/
def tickOut (o : Outputs) : Outputs :=
  if o.trigCnt = 0 then o
  else { o with trigCnt := o.trigCnt - 1, trigLine := if o.trigCnt = 1 then false else o.trigLine }

theorem tickTimer_out_self (c : Chan) (s : State) : ((tickTimer c s).chan c).out = tickOut (s.chan c).out := by
  unfold tickTimer tickOut
  split
  · rfl
  · split
    next h => simp [h]
    next => simp

theorem exec_tick_out {s t : State} (h : exec .tick s = .next t) (c : Chan) :
    (t.chan c).out = tickOut (s.chan c).out := by
  cases h
  cases c with
  | a =>
    rw [(tickTimer_step .b _).other .a (by decide), tickTimer_out_self]
    rfl
  | b =>
    rw [tickTimer_out_self, (tickTimer_step .a _).other .b (by decide)]
    rfl

/-- A line that is high exactly while its release timer is pending. -/
def PulseTimed (o : Outputs) : Prop := o.trigLine = true ↔ o.trigCnt ≠ 0

theorem PulseTimed.tickOut {o : Outputs} (h : PulseTimed o) : PulseTimed (tickOut o) := by
  unfold Machine.tickOut
  split
  · exact h
  next hcnt =>
    have hhigh : o.trigLine = true := h.2 hcnt
    have hlast : o.trigCnt - 1 = 0 ↔ o.trigCnt = 1 := by bv_omega
    simp only [PulseTimed, hhigh, ne_eq, hlast]
    simp

theorem tickOut_trigCnt_toNat (o : Outputs) : (tickOut o).trigCnt.toNat = o.trigCnt.toNat - 1 := by
  unfold tickOut
  split
  next h => simp [h]
  next h => bv_omega

/-- `k` ticks count `k` from the timer, and the line stays high exactly while it is pending. -/
theorem execTimes_tick_pulse {s : State} {c : Chan} (h : PulseTimed (s.chan c).out) (k : Nat) :
    ∃ t, execTimes .tick k s = .next t ∧ PulseTimed (t.chan c).out ∧
      (t.chan c).out.trigCnt.toNat = (s.chan c).out.trigCnt.toNat - k := by
  induction k generalizing s with
  | zero => exact ⟨s, rfl, h, rfl⟩
  | succ k ih =>
    obtain ⟨t, ht⟩ : ∃ t, exec .tick s = .next t := ⟨_, rfl⟩
    have hout := exec_tick_out ht c
    obtain ⟨u, hu, hpulse, hcnt⟩ := ih (hout ▸ h.tickOut)
    refine ⟨u, by rw [execTimes, ht]; exact hu, hpulse, ?_⟩
    rw [hcnt, hout, tickOut_trigCnt_toNat]
    omega

/-- Settles O16: a raised line with a pending timer stays tied to it, and each tick counts one off. -/
theorem triggerPulseLastsItsTicks : Obligations.TriggerPulseLastsItsTicks := by
  intro s c hline hcnt
  have hpulse : PulseTimed (s.chan c).out := iff_of_true hline hcnt
  refine ⟨fun k hk => ?high, ?low⟩
  case high =>
    obtain ⟨t, ht, hlevel, hleft⟩ := execTimes_tick_pulse hpulse k
    have hpending : (t.chan c).out.trigCnt ≠ 0 := by bv_omega
    exact ⟨t, ht, hlevel.2 hpending⟩
  case low =>
    obtain ⟨t, ht, hlevel, hleft⟩ := execTimes_tick_pulse hpulse (s.chan c).out.trigCnt.toNat
    have hover : (t.chan c).out.trigCnt = 0 := by bv_omega
    exact ⟨t, ht, Bool.eq_false_iff.2 fun hhigh => hlevel.1 hhigh hover, hover⟩

end Sys2Proof.Machine
end

section
/-! The code generator: the calibration line, and how a DAC code depends on the note, the bend and the vibrato
(41_cv_pipeline.md R160 to R167). -/

namespace Sys2Proof.Machine

/-! ### The calibration factor -/

/-- The point `r` twelfths of the way from `x` to `y`, rounded down, lies between the two. -/
theorem floored_twelfths_between (x y : Nat) {r : Nat} (hr : r < 12) :
    min x y ≤ (x * (12 - r) + y * r) / 12 ∧ (x * (12 - r) + y * r) / 12 ≤ max x y := by
  have hsplit : ∀ b : Nat, b * 12 = b * (12 - r) + b * r := fun b => by rw [← Nat.mul_add]; congr 1; omega
  constructor
  · rw [Nat.le_div_iff_mul_le (by decide), hsplit]
    exact Nat.add_le_add (Nat.mul_le_mul_right _ (min_le_left x y)) (Nat.mul_le_mul_right _ (min_le_right x y))
  · refine Nat.div_le_of_le_mul ?_
    rw [Nat.mul_comm 12, hsplit]
    exact Nat.add_le_add (Nat.mul_le_mul_right _ (le_max_left x y)) (Nat.mul_le_mul_right _ (le_max_right x y))

/-- From the last anchor on, the factor is the last anchor's. -/
theorem calScale_of_le (cal : Vector Half 11) {idx : Nat} (h : 120 ≤ idx) : calScale cal idx = cal[10].toNat :=
  dif_pos (by omega)

/-- Below the last anchor, the factor is on the line between the two anchors around the index. -/
theorem calScale_between (cal : Vector Half 11) {k r : Nat} (hk : k < 10) (hr : r < 12) :
    calScale cal (12 * k + r) = (cal[k].toNat * (12 - r) + cal[k + 1].toNat * r) / 12 := by
  have hdiv : (12 * k + r) / 12 = k := by omega
  have hmod : (12 * k + r) % 12 = r := by omega
  simp only [calScale, hdiv, hmod]
  exact dif_neg (by omega)

theorem calScale_anchor (cal : Vector Half 11) (k : Fin 11) : calScale cal (12 * k.val) = cal[k].toNat := by
  by_cases hk : k.val < 10
  · have hline := calScale_between cal hk (r := 0) (by decide)
    simpa using hline
  · obtain rfl : k = 10 := by omega
    exact calScale_of_le cal (by decide)

/-- Settles O24: the line between two anchors is a floored mean of the two. -/
theorem calibrationInterpolatesBetweenAnchors : Obligations.CalibrationInterpolatesBetweenAnchors := fun cal =>
  ⟨calScale_anchor cal, fun _ => calScale_of_le cal, fun k r hr => by
    have hline := calScale_between cal k.isLt hr
    exact ⟨hline, hline ▸ floored_twelfths_between _ _ hr⟩⟩

/-- With a constant table the factor is that constant at every index. -/
theorem calScale_replicate (v : Half) (idx : Nat) : calScale (Vector.replicate 11 v) idx = v.toNat := by
  by_cases hidx : 120 ≤ idx
  · rw [calScale_of_le _ hidx, Vector.getElem_replicate]
  · obtain ⟨hlow, hhigh⟩ := floored_twelfths_between v.toNat v.toNat (Nat.mod_lt idx (by decide : 12 > 0))
    have hline := calScale_between (Vector.replicate 11 v) (k := idx / 12) (by omega) (Nat.mod_lt idx (by decide))
    rw [Nat.div_add_mod, Vector.getElem_replicate, Vector.getElem_replicate] at hline
    omega

/-! ### The DAC code -/

/-- Settles O23: the statement is the definition's clamped sum, with the clamp to the note range written out. -/
theorem dacCodeIsTheClampedSum : Obligations.DacCodeIsTheClampedSum := fun cfg set note pbv vibc =>
  ⟨rfl, midiToDacCode_range cfg set note pbv vibc⟩

/-- A note stands for the note that the range clamps it to. -/
theorem noteIndex_clamped (cfg : Config) {note note' : Data7}
    (h : note'.toNat = max cfg.noteMin.toNat (min cfg.noteMax.toNat note.toNat)) :
    noteIndex cfg note = noteIndex cfg note' := by
  unfold noteIndex clamp
  omega

theorem bendOffset_mono (cfg : Config) (set : Settings) : Monotone (bendOffset cfg set) := fun _ _ h =>
  Int.ediv_le_ediv (by decide)
    (Int.mul_le_mul_of_nonneg_right (Int.mul_le_mul_of_nonneg_right h (Int.natCast_nonneg _)) (Int.natCast_nonneg _))

theorem vibOffset_mono (cfg : Config) : Monotone (vibOffset cfg) := fun _ _ h =>
  Int.ediv_le_ediv (by decide) (Int.mul_le_mul_of_nonneg_right h (Int.natCast_nonneg _))

theorem clamp_mono (lo hi : Int) : Monotone fun v => clamp v lo hi := fun _ _ h =>
  max_le_max_left lo (min_le_min_left hi h)

/-- The code rises with the bend and with the vibrato. -/
theorem midiToDacCode_mono (cfg : Config) (set : Settings) (note : Data7) {pbv pbv' vibc vibc' : Int}
    (hpb : pbv ≤ pbv') (hvib : vibc ≤ vibc') :
    midiToDacCode cfg set note pbv vibc ≤ midiToDacCode cfg set note pbv' vibc' :=
  clamp_mono 0 4095 (Int.ediv_le_ediv (by decide)
    (add_le_add (add_le_add_right (bendOffset_mono cfg set hpb) _) (vibOffset_mono cfg hvib)))

/-- Without bend and vibrato, and with a constant table, the code is the floored product, up to the last code. -/
theorem midiToDacCode_replicate (cfg : Config) {set : Settings} (note : Data7) {v : Half}
    (h : set.cal = Vector.replicate 11 v) :
    midiToDacCode cfg set note 0 0 = min 4095 (((noteIndex cfg note * v.toNat : Nat) : Int) / 256) := by
  have hbase : baseCode cfg set note = ((noteIndex cfg note * v.toNat : Nat) : Int) := by
    rw [baseCode, h, calScale_replicate, Int.natCast_mul]
  have hbend : bendOffset cfg set 0 = 0 := by simp [bendOffset]
  have hvib : vibOffset cfg 0 = 0 := by simp [vibOffset]
  rw [midiToDacCode, hbase, hbend, hvib, clamp]
  omega

/-- Settles O25: the note enters by its clamped index alone, the bend and the vibrato by monotone terms. -/
theorem dacCodeClampsNotesAndIsMonotone : Obligations.DacCodeClampsNotesAndIsMonotone :=
  fun cfg set note _ _ =>
    ⟨fun _ hnote => by simp only [midiToDacCode, baseCode, noteIndex_clamped cfg hnote],
      fun _ hpb => midiToDacCode_mono cfg set note hpb le_rfl,
      fun _ hvib => midiToDacCode_mono cfg set note le_rfl hvib,
      fun _ => midiToDacCode_replicate cfg note⟩

end Sys2Proof.Machine
end

section
/-! The triangle wave and the vibrato sample (41_cv_pipeline.md R170 to R173). -/

namespace Sys2Proof.Machine

/-! ### The triangle at the quarters of its period -/

section
variable {depth period p : Int}

theorem tri_zero (hperiod : 0 < period) : tri depth period 0 = 0 := by
  rw [tri, if_pos (by omega)]
  simp

theorem tri_quarter (hperiod : 0 < period) (hp : 4 * p = period) : tri depth period p = depth := by
  have hrun : 2 * period - 4 * p = period := by omega
  rw [tri, if_neg (by omega), if_pos (by omega), hrun, Int.mul_ediv_cancel _ hperiod.ne']

theorem tri_half (hperiod : 0 < period) (hp : 4 * p = 2 * period) : tri depth period p = 0 := by
  rw [tri, if_neg (by omega), if_pos (by omega), hp, sub_self, mul_zero, Int.zero_ediv]

theorem tri_three_quarters (hperiod : 0 < period) (hp : 4 * p = 3 * period) : tri depth period p = -depth := by
  have hrun : depth * (4 * p - 4 * period) = -depth * period := by rw [hp]; ring
  rw [tri, if_neg (by omega), if_neg (by omega), hrun, Int.mul_ediv_cancel _ hperiod.ne']

end

/-- Settles O26: the range is that of all phases inside the period, and each quarter begins a piece. -/
theorem triangleStaysWithinDepth : Obligations.TriangleStaysWithinDepth := by
  intro depth period p hdepth hperiod hp hlt
  obtain ⟨hlow, hhigh⟩ := tri_within hdepth hp hlt
  exact ⟨rfl, hlow, hhigh, fun h => by rw [h, tri_zero hperiod], tri_quarter hperiod, tri_half hperiod,
    tri_three_quarters hperiod⟩

/-! ### The vibrato sample -/

theorem lfoPeriod_eq (set : Settings) (tempoAvg : Half) :
    lfoPeriod set tempoAvg =
      if set.vibMode = .off then 0
      else if set.vibMode = .free then set.vibPeriod.toNat
      else tempoAvg.toNat * set.vibSync.toNat / 64 := by
  cases h : set.vibMode <;> simp [lfoPeriod, h]

theorem shapeVib_eq (shape : VibShape) (v : Int) :
    shapeVib shape v = if shape = .bipolar then v else if shape = .halfWave then max v 0 else |v| := by
  cases shape <;> rfl

/-- The shapes HalfWave and Rectified have no negative half. -/
theorem shapeVib_nonneg {shape : VibShape} (h : shape ≠ .bipolar) (v : Int) : 0 ≤ shapeVib shape v := by
  cases shape with
  | bipolar => exact absurd rfl h
  | halfWave => exact le_max_right v 0
  | rectified => exact abs_nonneg v

/-- When the vibrato is silent (41_cv_pipeline.md R170). -/
def VibSilent (set : Settings) (tempoAvg : Half) (el : Nat) : Prop :=
  set.vibMode = .off ∨ set.vibDepth = 0 ∨ el < set.vibDelay.toNat ∨ lfoPeriod set tempoAvg = 0

theorem vibSample_of_silent {set : Settings} {tempoAvg : Half} {el : Nat} (h : VibSilent set tempoAvg el) :
    vibSample set tempoAvg el = 0 := by
  unfold vibSample
  split
  · rfl
  next hoff =>
    split
    · rfl
    next hdelay => exact if_pos (by unfold VibSilent at h; tauto)

theorem vibSample_of_sounding {set : Settings} {tempoAvg : Half} {el : Nat} (h : ¬VibSilent set tempoAvg el) :
    vibSample set tempoAvg el =
      shapeVib set.vibShape
        (tri set.vibDepth.toNat (lfoPeriod set tempoAvg)
          (lfoPhase set (lfoPeriod set tempoAvg) (el - set.vibDelay.toNat))) := by
  simp only [VibSilent, not_or] at h
  obtain ⟨hmode, hdepth, hdelay, hperiod⟩ := h
  rw [vibSample, if_neg (not_or.2 ⟨hmode, hdepth⟩), if_neg hdelay, if_neg hperiod]

theorem vibSample_nonneg {set : Settings} (h : set.vibShape ≠ .bipolar) (tempoAvg : Half) (el : Nat) :
    0 ≤ vibSample set tempoAvg el := by
  by_cases hsilent : VibSilent set tempoAvg el
  · rw [vibSample_of_silent hsilent]
  · rw [vibSample_of_sounding hsilent]
    exact shapeVib_nonneg h _

/-- Settles O27: the statement's period and shape are the model's, and its two cases are silence and its negation. -/
theorem vibratoIsTheShapedTriangle : Obligations.VibratoIsTheShapedTriangle := by
  intro set tempoAvg el period wave
  have hperiod : lfoPeriod set tempoAvg = period := lfoPeriod_eq set tempoAvg
  obtain ⟨hlow, hhigh⟩ := vibSample_within set tempoAvg el
  refine ⟨fun hsilent => ?silent, fun hmode hdepth hdelay hpos => ?sounding, hlow, hhigh,
    fun hshape => vibSample_nonneg hshape tempoAvg el⟩
  case silent => exact vibSample_of_silent (by rwa [VibSilent, hperiod])
  case sounding =>
    have hsounds : ¬VibSilent set tempoAvg el := by
      rw [VibSilent, hperiod]
      exact not_or.2 ⟨hmode, not_or.2 ⟨hdepth, not_or.2 ⟨not_lt.2 hdelay, hpos⟩⟩⟩
    rw [vibSample_of_sounding hsounds, hperiod, shapeVib_eq]
    rfl

end Sys2Proof.Machine
end

section
/-! The code of a channel at a time, and the commands that write it: `PROGRESS` and `PBEND` (41_cv_pipeline.md R176 to
R182). -/

namespace Sys2Proof.Machine

/-! ### The line of a glide -/

/-- The point `m` parts of `d` of the way from `x` to `y`, rounded down, lies between the two. -/
theorem floored_line_between (x y : Int) {m d : Nat} (hm : m ≤ d) (hd : 0 < d) :
    min x y ≤ x + m * (y - x) / d ∧ x + m * (y - x) / d ≤ max x y := by
  have hm' : (m : Int) ≤ d := Int.ofNat_le.2 hm
  have hd' : (0 : Int) < d := Int.natCast_pos.2 hd
  have hm0 : (0 : Int) ≤ m := Int.natCast_nonneg m
  have hlow : min x y - x ≤ m * (y - x) / d := by
    rw [Int.le_ediv_iff_mul_le hd']
    rcases le_total x y with h | h
    · rw [min_eq_left h]; nlinarith
    · rw [min_eq_right h]; nlinarith
  have hhigh : m * (y - x) / d ≤ max x y - x := by
    refine Int.ediv_le_of_le_mul hd' ?_
    rcases le_total x y with h | h
    · rw [max_eq_right h]; nlinarith
    · rw [max_eq_left h]; nlinarith
  omega

/-! ### The code at a time -/

/-- The code of a note on a channel, with the channel's bend and vibrato (41_cv_pipeline.md R176). -/
def Channel.codeOf (cfg : Config) (ch : Channel) (note : Data7) : Int :=
  midiToDacCode cfg ch.set note ch.rt.pb.toInt ch.rt.vib.toInt

section
variable {cfg : Config} {ms : BitVec 32} {ch : Channel}

theorem currentCode_of_not_sliding (h : ch.rt.sliding = false) :
    currentCode cfg ms ch = ch.codeOf cfg ch.rt.endNote := if_neg (by simp [h])

theorem currentCode_of_sliding (h : ch.rt.sliding = true) :
    currentCode cfg ms ch =
      ch.codeOf cfg ch.rt.startNote +
        ((min (elapsed ms ch.rt.slideT0) ch.rt.slideDur.toNat : Nat) : Int)
          * (ch.codeOf cfg ch.rt.endNote - ch.codeOf cfg ch.rt.startNote) / ch.rt.slideDur.toNat := if_pos h

theorem currentCode_at_start (h : ch.rt.sliding = true) (hel : elapsed ms ch.rt.slideT0 = 0) :
    currentCode cfg ms ch = ch.codeOf cfg ch.rt.startNote := by
  simp [currentCode_of_sliding h, hel]

theorem currentCode_at_end (h : ch.rt.sliding = true) (hdur : 0 < ch.rt.slideDur.toNat)
    (hel : ch.rt.slideDur.toNat ≤ elapsed ms ch.rt.slideT0) :
    currentCode cfg ms ch = ch.codeOf cfg ch.rt.endNote := by
  rw [currentCode_of_sliding h, min_eq_right hel, Int.mul_ediv_cancel_left _ (by omega), add_sub_cancel]

theorem currentCode_between (h : ch.rt.sliding = true) (hdur : 0 < ch.rt.slideDur.toNat) :
    min (ch.codeOf cfg ch.rt.startNote) (ch.codeOf cfg ch.rt.endNote) ≤ currentCode cfg ms ch ∧
      currentCode cfg ms ch ≤ max (ch.codeOf cfg ch.rt.startNote) (ch.codeOf cfg ch.rt.endNote) := by
  rw [currentCode_of_sliding h]
  exact floored_line_between _ _ (min_le_right _ _) hdur

end

/-- Settles O28: the line of the glide at its ends and between them. -/
theorem glideRunsFromStartCodeToEndCode : Obligations.GlideRunsFromStartCodeToEndCode := by
  intro cfg ms ch sc ec el
  refine ⟨currentCode_of_not_sliding, fun hsliding hdur => ?_⟩
  have hpos : 0 < ch.rt.slideDur.toNat := by bv_omega
  exact ⟨currentCode_of_sliding hsliding, currentCode_at_start hsliding, currentCode_at_end hsliding hpos,
    currentCode_between hsliding hpos⟩

/-! ### Writes of the present code -/

/-- `slide_progress` whole: the channel and its one event (41_cv_pipeline.md R179). -/
theorem slideProgress_eq (c : Chan) (s : State) :
    let ch := { s.chan c with rt := progressRt s.ms s.routing.tempoAvg (s.chan c).set (s.chan c).rt }
    let code := BitVec.ofInt 12 (currentCode s.cfg s.ms ch)
    slideProgress c s =
      { s.setChan c { ch with out := { ch.out with dacCode := code } } with
        trace := s.trace ++ [.dac c (dacFrame s.cfg c code)] } := by
  refine (slideProgress_step c s).eq_of ?_ ?_
  all_goals simp [slideProgress, writeCurrent]

/-- Settles O29: CV-A's progress leaves CV-B, the time, the tempo and the configuration that CV-B's reads. -/
theorem progressRewritesBothChannels : Obligations.ProgressRewritesBothChannels := by
  intro s rt code
  refine congrArg Host.Outcome.next ?_
  rw [slideProgress_eq .b, slideProgress_eq .a]
  refine State.eq_of_fields rfl rfl (fun c => ?_) rfl rfl rfl rfl ?_ rfl
  · cases c <;> rfl
  · exact List.append_assoc s.trace _ _

/-- The DAC register holds the end note's code, with bend and vibrato, unless a glide runs
(41_cv_pipeline.md R177). -/
def Channel.ReflectsEndNote (cfg : Config) (ch : Channel) : Prop :=
  ch.rt.sliding = false → (ch.out.dacCode.toNat : Int) = ch.codeOf cfg ch.rt.endNote

/-- Writing the present code makes the channel reflect its end note, and the 12 bits hold the code whole. -/
theorem writeCurrent_reflects (c : Chan) (s : State) :
    ((writeCurrent c s).chan c).ReflectsEndNote (writeCurrent c s).cfg := by
  rw [(writeCurrent_step c s).cfg, writeCurrent, dacWrite_chan_self]
  intro (hsliding : (s.chan c).rt.sliding = false)
  rw [currentCode_of_not_sliding hsliding]
  exact ofInt_midiToDacCode_toNat _ _ _ _ _

/-- A step of one channel leaves the other as it was, reflecting or not. -/
theorem ChanStep.keeps_reflects {c d : Chan} {s t : State} (h : ChanStep c s t) (hd : d ≠ c)
    (hs : (s.chan d).ReflectsEndNote s.cfg) : (t.chan d).ReflectsEndNote t.cfg := by
  rwa [h.other d hd, h.cfg]

theorem routed_of_true {p : Bool} (h : p = true) (f : State → State) (s : State) : routed p f s = f s := if_pos h

/-- Routing decides whether a channel's step is taken, not what it may change. -/
theorem routed_step {c : Chan} {f : State → State} {s : State} (p : Bool) (h : ChanStep c s (f s)) :
    ChanStep c s (routed p f s) := by
  cases p with
  | false => exact .refl c s
  | true => exact h

/-- Settles O30: each channel is written by its own present code, and what CV-B does next leaves CV-A. -/
theorem outputReflectsEndNoteWhenNotSliding : Obligations.OutputReflectsEndNoteWhenNotSliding := by
  refine ⟨fun s => ⟨_, rfl, fun c => ?progress⟩, fun s ch amount => ⟨_, rfl, fun hA => ?bendA, fun hB => ?bendB⟩⟩
  case progress =>
    cases c with
    | a => exact (slideProgress_step .b _).keeps_reflects (by decide) (writeCurrent_reflects .a _)
    | b => exact writeCurrent_reflects .b _
  case bendA =>
    rw [routed_of_true (p := toA s ch) (beq_iff_eq.2 hA)]
    exact (routed_step _ (pitchBend_step .b amount _)).keeps_reflects (d := .a) (by decide) (writeCurrent_reflects .a _)
  case bendB =>
    rw [routed_of_true (p := toB s ch) (beq_iff_eq.2 hB)]
    exact writeCurrent_reflects .b _

end Sys2Proof.Machine
end

section
/-! The control-change actions as the values that they store (42_control_change.md R202 to R217). -/

namespace Sys2Proof.Machine

/-! ### The linear scaling -/

/-- The linear scaling is the line of a glide with 127 parts. -/
theorem scaled_eq_line (lo hi : Nat) {v : Nat} (hv : v ≤ 127) :
    (((lo * (127 - v) + hi * v) / 127 : Nat) : Int) = lo + v * ((hi : Int) - lo) / (127 : Nat) := by
  have hsum : ((lo * (127 - v) + hi * v : Nat) : Int) = v * ((hi : Int) - lo) + (127 : Nat) * lo := by
    push_cast [Nat.cast_sub hv]
    ring
  rw [Int.natCast_ediv, hsum, Int.add_mul_ediv_left _ _ (by decide), Int.add_comm]

theorem scaled_between (lo hi : Nat) {v : Nat} (hv : v ≤ 127) :
    min lo hi ≤ (lo * (127 - v) + hi * v) / 127 ∧ (lo * (127 - v) + hi * v) / 127 ≤ max lo hi := by
  have hline := floored_line_between lo hi hv (by decide)
  rw [← scaled_eq_line lo hi hv] at hline
  omega

theorem data7_le (v : Data7) : v.toNat ≤ 127 := by omega

/-- A point between two values of the register's width has that width (42_control_change.md R203). -/
theorem lin_toNat {w : Nat} (sc : Scale w) (v : Data7) :
    (lin sc v).toNat = (sc.lo.toNat * (127 - v.toNat) + sc.hi.toNat * v.toNat) / 127 := by
  obtain ⟨-, hmax⟩ := scaled_between sc.lo.toNat sc.hi.toNat (data7_le v)
  exact BitVec.toNat_ofNat _ _ |>.trans (Nat.mod_eq_of_lt (hmax.trans_lt (max_lt sc.lo.isLt sc.hi.isLt)))

theorem lin_zero {w : Nat} (sc : Scale w) : lin sc 0 = sc.lo :=
  BitVec.eq_of_toNat_eq (by simp [lin_toNat])

theorem lin_top {w : Nat} (sc : Scale w) : lin sc 127 = sc.hi :=
  BitVec.eq_of_toNat_eq (by simp [lin_toNat])

/-- Settles O46: the line, its two ends, and its bounds. -/
theorem linearScalingRunsFromLoToHi : Obligations.LinearScalingRunsFromLoToHi := fun _ sc v =>
  ⟨lin_toNat sc v, lin_zero sc, lin_top sc, lin_toNat sc v ▸ scaled_between _ _ (data7_le v)⟩

/-! ### The default scales -/

/-- A pair that rises by a whole number for each controller value scales without rounding. -/
theorem lin_of_whole_slope {w : Nat} {sc : Scale w} (slope : Nat) (h : sc.hi.toNat = sc.lo.toNat + 127 * slope)
    (v : Data7) : lin sc v = BitVec.ofNat w (slope * v.toNat + sc.lo.toNat) := by
  have hv := data7_le v
  have hsplit : sc.lo.toNat * 127 = sc.lo.toNat * (127 - v.toNat) + sc.lo.toNat * v.toNat := by
    rw [← Nat.mul_add]
    congr 1
    omega
  refine congrArg (BitVec.ofNat w) (Nat.div_eq_of_eq_mul_right (by decide) ?_)
  rw [h]
  linarith

/-- The default scale of the trigger length and the advance width, `v + 1` (42_control_change.md R204, R216). -/
theorem lin_one_to_128 {w : Nat} {sc : Scale w} (hlo : sc.lo.toNat = 1) (hhi : sc.hi.toNat = 128) (v : Data7) :
    lin sc v = BitVec.ofNat w (v.toNat + 1) := by
  rw [lin_of_whole_slope 1 (by omega), hlo, Nat.one_mul]

/-- The default scale of every time, 20 milliseconds a value (42_control_change.md R207 to R209, R212). -/
theorem lin_default_time (v : Data7) : lin (⟨0, 2540⟩ : Scale 16) v = BitVec.ofNat 16 (20 * v.toNat) :=
  lin_of_whole_slope 20 rfl v

theorem lin_default_pbRange (v : Data7) : lin defaultCcScale.pbRange v = BitVec.ofNat 7 (24 * v.toNat / 127) := by
  simp [lin, defaultCcScale]

theorem lin_default_vibDepth (v : Data7) : lin defaultCcScale.vibDepth v = BitVec.ofNat 12 v.toNat :=
  (lin_of_whole_slope 1 rfl v).trans (congrArg (BitVec.ofNat 12) (Nat.one_mul _))

/-- Settles O47: the actions by definition, then the value that each default pair scales to. -/
theorem defaultScalesHaveClosedForms : Obligations.DefaultScalesHaveClosedForms := by
  refine ⟨fun sc val set g => ⟨rfl, rfl, rfl, rfl, rfl, rfl, rfl, rfl, rfl⟩, fun val set g => ?_⟩
  have htrigLen : lin defaultCcScale.trigLen val = _ := lin_one_to_128 rfl rfl val
  have hadvWidth : lin defaultCcScale.advWidth val = _ := lin_one_to_128 rfl rfl val
  have htime := lin_default_time val
  refine ⟨?trigLen, ?pbRange, ?portaTime, ?portaAsc, ?portaDesc, rfl, ?vibDepth, ?vibDelay, ?advWidth⟩
  case trigLen => rw [← htrigLen]; rfl
  case pbRange => rw [← lin_default_pbRange]; rfl
  case portaTime => rw [← htime]; rfl
  case portaAsc => rw [← htime]; rfl
  case portaDesc => rw [← htime]; rfl
  case vibDepth => rw [← lin_default_vibDepth]; rfl
  case vibDelay => rw [← htime]; rfl
  case advWidth => rw [← hadvWidth]; rfl

/-! ### Switches and enumerations -/

/-- The four retrigger modes take 32 values each (42_control_change.md R214). -/
theorem retrigMode_of_value (val : Data7) :
    RetrigMode.ofCode (BitVec.ofNat 2 (val.toNat / 32)) =
      if val.toNat ≤ 31 then .off else if val.toNat ≤ 63 then .highest else if val.toNat ≤ 95 then .lowest
      else .latest := by
  have hv := data7_le val
  split_ifs
  · rw [show val.toNat / 32 = 0 by omega]; rfl
  · rw [show val.toNat / 32 = 1 by omega]; rfl
  · rw [show val.toNat / 32 = 2 by omega]; rfl
  · rw [show val.toNat / 32 = 3 by omega]; rfl

/-- The three trigger modes split the values at 42 and 85 (42_control_change.md R215). -/
theorem trigMode_of_value (val : Data7) :
    TrigMode.ofCode (BitVec.ofNat 2 (3 * val.toNat / 128)) =
      if val.toNat ≤ 42 then .none else if val.toNat ≤ 85 then .trig else .gate := by
  have hv := data7_le val
  split_ifs
  · rw [show 3 * val.toNat / 128 = 0 by omega]; rfl
  · rw [show 3 * val.toNat / 128 = 1 by omega]; rfl
  · rw [show 3 * val.toNat / 128 = 2 by omega]; rfl

/-- The eight divisions take 16 values each (42_control_change.md R217). -/
theorem divTable_of_value (val : Data7) (h : val.toNat / 16 < 8) :
    divTable[val.toNat / 16] =
      if val.toNat ≤ 15 then 1 else if val.toNat ≤ 31 then 2 else if val.toNat ≤ 47 then 3
      else if val.toNat ≤ 63 then 4 else if val.toNat ≤ 79 then 6 else if val.toNat ≤ 95 then 8
      else if val.toNat ≤ 111 then 12 else 24 := by
  have hband : ∀ k (hk : k < 8), val.toNat / 16 = k → divTable[val.toNat / 16] = divTable[k] := by
    rintro _ _ rfl
    rfl
  split_ifs
  · exact hband 0 (by decide) (by omega)
  · exact hband 1 (by decide) (by omega)
  · exact hband 2 (by decide) (by omega)
  · exact hband 3 (by decide) (by omega)
  · exact hband 4 (by decide) (by omega)
  · exact hband 5 (by decide) (by omega)
  · exact hband 6 (by decide) (by omega)
  · exact hband 7 (by decide) (by omega)

/-- Settles O48: the two switches by definition, the others by where their bands end. -/
theorem enumeratedActionsSplitTheRange : Obligations.EnumeratedActionsSplitTheRange := by
  intro sc val set g v
  refine ⟨rfl, ?vibSyncOn, ?retrigMode, ?trigMode, ?clkDiv⟩
  case vibSyncOn => simp [chanAction, ccSwitch, v]
  case retrigMode => rw [chanAction, retrigMode_of_value]
  case trigMode => rw [chanAction, trigMode_of_value]
  case clkDiv => rw [globalAction, divTable_of_value]

end Sys2Proof.Machine
end

section
/-! A `CC` as the register writes of its action (42_control_change.md R218, 44_router.md R270). -/

namespace Sys2Proof.Machine

/-! ### Sequences of register writes -/

/-- `REG_WRITE`s one after the other (45_system.md R293). -/
def regWrites (l : List (RegAddr × Half)) (s : State) : State := l.foldl (fun u p => regWrite p.1 p.2 u) s

theorem regWrites_append (l m : List (RegAddr × Half)) (s : State) :
    regWrites (l ++ m) s = regWrites m (regWrites l s) := List.foldl_append

/-- Writes made only where a condition holds are a routed sequence. -/
theorem regWrites_ite (p : Prop) [Decidable p] (l : List (RegAddr × Half)) (s : State) :
    regWrites (if p then l else []) s = routed p (regWrites l) s := by
  by_cases h : p
  · simp [routed, h]
  · simp [routed, h, regWrites]

theorem SettingsOnly.trans {s t u : State} (h : SettingsOnly s t) (k : SettingsOnly t u) : SettingsOnly s u where
  cfg := k.cfg.trans h.cfg
  ms := k.ms.trans h.ms
  seq := k.seq.trans h.seq
  msHiLatch := k.msHiLatch.trans h.msHiLatch
  advCount := k.advCount.trans h.advCount
  trace := k.trace.trans h.trace
  port := k.port.trans h.port
  rt c := (k.rt c).trans (h.rt c)
  out c := (k.out c).trans (h.out c)

theorem regWrites_settingsOnly (l : List (RegAddr × Half)) (s : State) : SettingsOnly s (regWrites l s) := by
  induction l generalizing s with
  | nil => exact .refl s
  | cons p l ih => exact (regWrite_settingsOnly p.1 p.2 s).trans (ih _)

/-! ### Writes of one channel's settings registers -/

theorem updSet_updSet (s : State) (c : Chan) (f g : Settings → Settings) :
    (s.updSet c f).updSet c g = s.updSet c fun set => g (f set) := by
  rw [State.updSet, updSet_chan_self, State.updSet, setChan_setChan, State.updSet]

/-- An update is what it makes of the settings that the channel has. -/
theorem updSet_congr {s : State} {c : Chan} {f g : Settings → Settings} (h : f (s.chan c).set = g (s.chan c).set) :
    s.updSet c f = s.updSet c g := by
  rw [State.updSet, h, State.updSet]

/-- Writes of a channel's settings registers, at their addresses (10_state.md R65). -/
def settingWrites (c : Chan) (l : List (SetReg × Half)) : List (RegAddr × Half) :=
  l.map fun p => ((Reg.setting c p.1).addr, p.2)

/-- The settings after writes of the registers that hold them. -/
def settingStores (l : List (SetReg × Half)) (set : Settings) : Settings :=
  l.foldl (fun x p => settingStore p.1 p.2 x) set

/-- Writes of a channel's settings registers update that channel's settings. -/
theorem regWrites_settingWrites (c : Chan) (l : List (SetReg × Half)) (s : State) :
    regWrites (settingWrites c l) s = s.updSet c (settingStores l) := by
  induction l generalizing s with
  | nil => exact (setChan_chan s c).symm
  | cons p l ih =>
    calc regWrites (settingWrites c (p :: l)) s
      _ = regWrites (settingWrites c l) (regWrite (Reg.setting c p.1).addr p.2 s) := rfl
      _ = (s.updSet c (settingStore p.1 p.2)).updSet c (settingStores l) := by
        rw [ih, regWrite_of_regAt (regAt_addr _), regStore]
      _ = s.updSet c (settingStores (p :: l)) := updSet_updSet s c _ _

/-! ### The writes of the actions -/

/-- A field written alone at the bottom of its register is stored whole. -/
theorem bits_ofNat_toNat {w : Nat} (hw : w ≤ 16) (x : BitVec w) : bits (BitVec.ofNat 16 x.toNat) 0 w = x := by
  have hx : x.toNat < 2 ^ 16 := x.isLt.trans_le (Nat.pow_le_pow_right (by decide) hw)
  refine BitVec.eq_of_toNat_eq ?_
  rw [bits_toNat, BitVec.toNat_ofNat, Nat.mod_eq_of_lt hx, Nat.pow_zero, Nat.div_one, Nat.mod_eq_of_lt x.isLt]

theorem toNat_ofNat_of_lt {w n : Nat} (h : n < 2 ^ w) : (BitVec.ofNat w n).toNat = n := by
  rw [BitVec.toNat_ofNat, Nat.mod_eq_of_lt h]

/-- The two codes of `TRIG_CFG`, as they were added up. -/
theorem bits_trigCfg : ∀ x y : BitVec 2,
    bits (BitVec.ofNat 16 (x.toNat + 4 * y.toNat)) 0 2 = x ∧
      bits (BitVec.ofNat 16 (x.toNat + 4 * y.toNat)) 2 2 = y := by decide

/-- The three fields of `VIB_CFG`, as they were added up. -/
theorem bits_vibCfg : ∀ x y z : BitVec 2,
    bits (BitVec.ofNat 16 (x.toNat + 4 * y.toNat + 16 * z.toNat)) 0 2 = x ∧
      bits (BitVec.ofNat 16 (x.toNat + 4 * y.toNat + 16 * z.toNat)) 2 2 = y ∧
      bits (BitVec.ofNat 16 (x.toNat + 4 * y.toNat + 16 * z.toNat)) 4 2 = z := by decide

theorem retrigMode_ofCode_code (m : RetrigMode) : RetrigMode.ofCode m.code = m := by cases m <;> rfl
theorem trigMode_ofCode_code (m : TrigMode) : TrigMode.ofCode m.code = m := by cases m <;> rfl
theorem vibMode_ofCode_code (m : VibMode) : VibMode.ofCode m.code = m := by cases m <;> rfl
theorem vibShape_ofCode_code (m : VibShape) : VibShape.ofCode m.code = m := by cases m <;> rfl

theorem settingStore_trigCfg (x y : BitVec 2) (set : Settings) :
    settingStore .trigCfg (BitVec.ofNat 16 (x.toNat + 4 * y.toNat)) set =
      { set with trigMode := .ofCode x, retrigMode := .ofCode y } := by
  obtain ⟨hx, hy⟩ := bits_trigCfg x y
  rw [settingStore, hx, hy]

theorem settingStore_vibCfg (m : VibMode) (set : Settings) :
    settingStore .vibCfg (BitVec.ofNat 16 (m.code.toNat + 4 * set.vibShape.code.toNat + 16 * set.vibPhaseQ.toNat))
      set = { set with vibMode := m } := by
  obtain ⟨hmode, hshape, hphase⟩ := bits_vibCfg m.code set.vibShape.code set.vibPhaseQ
  rw [settingStore, hmode, hshape, hphase, vibMode_ofCode_code, vibShape_ofCode_code]

/-- The switch written as a bit of `PORTA_CFG` (42_control_change.md R206). -/
theorem settingStore_portaCfg (val : Data7) (set : Settings) :
    settingStore .portaCfg (BitVec.ofNat 16 (if 64 ≤ val.toNat then 1 else 0)) set =
      { set with portaEn := ccSwitch val } := by
  rw [ccSwitch]
  by_cases hon : 64 ≤ val.toNat
  · rw [if_pos hon, decide_eq_true hon]; rfl
  · rw [if_neg hon, decide_eq_false hon]; rfl

/-- The switch written as a vibrato mode (42_control_change.md R213). -/
theorem vibMode_code_of_switch (val : Data7) :
    (if ccSwitch val then VibMode.tempoSync else .free).code.toNat = if 64 ≤ val.toNat then 2 else 1 := by
  rw [ccSwitch]
  by_cases hon : 64 ≤ val.toNat
  · rw [if_pos hon, decide_eq_true hon]; rfl
  · rw [if_neg hon, decide_eq_false hon]; rfl

/-- The settings registers that a channel action writes, with their values; a register that holds other settings too
is written with those as they are (42_control_change.md R204 to R215). -/
def actionWrites (sc : CcScale) (val : Data7) (set : Settings) : ChanAction → List (SetReg × Half)
  | .trigLen => [(.trigLen, BitVec.ofNat 16 (lin sc.trigLen val).toNat)]
  | .pbRange => [(.pbRange, BitVec.ofNat 16 (lin sc.pbRange val).toNat)]
  | .portaOn => [(.portaCfg, BitVec.ofNat 16 (if 64 ≤ val.toNat then 1 else 0))]
  | .portaTime =>
    [(.portaAsc, BitVec.ofNat 16 (lin sc.portaTime val).toNat),
      (.portaDesc, BitVec.ofNat 16 (lin sc.portaTime val).toNat)]
  | .portaAsc => [(.portaAsc, BitVec.ofNat 16 (lin sc.portaAsc val).toNat)]
  | .portaDesc => [(.portaDesc, BitVec.ofNat 16 (lin sc.portaDesc val).toNat)]
  | .vibRate => [(.vibPeriod, BitVec.ofNat 16 (lin sc.vibRate val).toNat)]
  | .vibDepth => [(.vibDepth, BitVec.ofNat 16 (lin sc.vibDepth val).toNat)]
  | .vibDelay => [(.vibDelay, BitVec.ofNat 16 (lin sc.vibDelay val).toNat)]
  | .vibSyncOn =>
    [(.vibCfg, BitVec.ofNat 16
      ((if 64 ≤ val.toNat then 2 else 1) + 4 * set.vibShape.code.toNat + 16 * set.vibPhaseQ.toNat))]
  | .retrigMode => [(.trigCfg, BitVec.ofNat 16 (set.trigMode.code.toNat + 4 * (val.toNat / 32)))]
  | .trigMode => [(.trigCfg, BitVec.ofNat 16 (3 * val.toNat / 128 + 4 * set.retrigMode.code.toNat))]

/-- The stores of an action's registers are the action. -/
theorem settingStores_actionWrites (sc : CcScale) (val : Data7) (set : Settings) (a : ChanAction) :
    settingStores (actionWrites sc val set a) set = chanAction sc a val set := by
  cases a with
  | trigLen | portaTime | portaAsc | portaDesc | vibRate | vibDelay =>
    simp [settingStores, actionWrites, settingStore, chanAction]
  | pbRange => exact congrArg (fun x => { set with pbRange := x }) (bits_ofNat_toNat (by decide) _)
  | vibDepth => exact congrArg (fun x => { set with vibDepth := x }) (bits_ofNat_toNat (by decide) _)
  | portaOn => exact settingStore_portaCfg val set
  | vibSyncOn =>
    have hstore := settingStore_vibCfg (if ccSwitch val then .tempoSync else .free) set
    rwa [vibMode_code_of_switch] at hstore
  | retrigMode =>
    have hstore := settingStore_trigCfg set.trigMode.code (BitVec.ofNat 2 (val.toNat / 32)) set
    rwa [toNat_ofNat_of_lt (by omega), trigMode_ofCode_code] at hstore
  | trigMode =>
    have hstore := settingStore_trigCfg (BitVec.ofNat 2 (3 * val.toNat / 128)) set.retrigMode.code set
    rwa [toNat_ofNat_of_lt (by omega), retrigMode_ofCode_code] at hstore

/-- The register that a global action writes, with its value (42_control_change.md R216, R217). -/
def globalWrites (sc : CcScale) (val : Data7) : GlobalAction → List (RegAddr × Half)
  | .advWidth => [(0x03, BitVec.ofNat 16 (lin sc.advWidth val).toNat)]
  | .clkDiv => [(0x02, BitVec.ofNat 16 ([1, 2, 3, 4, 6, 8, 12, 24].getD (val.toNat / 16) 0))]

/-- Every division of the table is legal, so the register stores it as it is. -/
theorem legalClkDiv_divTable : ∀ k : Fin 8,
    legalClkDiv (bits (BitVec.ofNat 16 ([1, 2, 3, 4, 6, 8, 12, 24].getD k 0)) 0 5) = divTable[k] := by decide

theorem regWrites_globalWrites (a : GlobalAction) (val : Data7) (s : State) :
    regWrites (globalWrites s.cfg.ccScale val a) s = globalChange a val s := by
  cases a with
  | advWidth =>
    exact congrArg (fun b => s.updRouting fun g => { g with advWidth := b }) (bits_ofNat_toNat (by decide) _)
  | clkDiv =>
    exact congrArg (fun b => s.updRouting fun g => { g with clkDiv := b })
      (legalClkDiv_divTable ⟨val.toNat / 16, by omega⟩)

/-! ### `CC` -/

/-- A channel's action is its register writes, with the values that its settings give. -/
theorem regWrites_actionWrites {cfg : Config} {num val : Data7} {a : ChanAction} {c : Chan} {set : Settings} {s : State}
    (hmap : ccAction cfg num = some (.chan a)) (hcfg : s.cfg = cfg) (hset : (s.chan c).set = set) :
    regWrites (settingWrites c (actionWrites cfg.ccScale val set a)) s = controlChange c num val s := by
  rw [regWrites_settingWrites, controlChange, hcfg, hmap]
  exact updSet_congr (hset ▸ settingStores_actionWrites _ _ _ a)

theorem controlChange_cfg (c : Chan) (num val : Data7) (s : State) : (controlChange c num val s).cfg = s.cfg := by
  unfold controlChange
  split
  · exact updSet_cfg s c _
  · rfl
  · rfl

/-- What happens on one channel leaves the settings of another. -/
theorem controlChange_chan_ne {c d : Chan} (h : d ≠ c) (num val : Data7) (s : State) :
    (controlChange c num val s).chan d = s.chan d := by
  unfold controlChange
  split
  · exact updSet_chan_ne s _ h
  · rfl
  · rfl

/-- The register writes of a `CC`: once for a global action, and for a channel's action on each channel of that MIDI
channel (44_router.md R270). -/
def ccWrites (ch : MidiChannel) (num val : Data7) (s : State) : List (RegAddr × Half) :=
  match ccAction s.cfg num with
  | none => []
  | some (.global a) =>
    if ch = s.routing.chanA ∨ ch = s.routing.chanB ∨ ch = s.routing.chanKbd then globalWrites s.cfg.ccScale val a
    else []
  | some (.chan a) =>
    (if ch = s.routing.chanA then settingWrites .a (actionWrites s.cfg.ccScale val s.cvA.set a) else [])
      ++ (if ch = s.routing.chanB then settingWrites .b (actionWrites s.cfg.ccScale val s.cvB.set a) else [])

theorem routed_congr {p : Bool} {f g : State → State} {s : State} (h : f s = g s) : routed p f s = routed p g s := by
  rw [routed, h, routed]

/-- What holds whether or not the step is taken holds after routing. -/
theorem routed_keep {P : State → Prop} {f : State → State} {s : State} (p : Bool) (hs : P s) (hf : P (f s)) :
    P (routed p f s) := by
  cases p with
  | false => exact hs
  | true => exact hf

theorem globalRouted_eq_decide (s : State) (ch : MidiChannel) :
    globalRouted s ch = decide (ch = s.routing.chanA ∨ ch = s.routing.chanB ∨ ch = s.routing.chanKbd) := by
  simp [globalRouted, Bool.beq_eq_decide_eq, Bool.or_assoc]

/-- CV-A's action, routed or not, leaves the configuration and CV-B's settings, which CV-B's writes are made of. -/
theorem exec_cc (ch : MidiChannel) (num val : Data7) (s : State) :
    exec (.cc ch num val) s = .next (regWrites (ccWrites ch num val s) s) := by
  rw [exec, execCc, ccWrites]
  cases hmap : ccAction s.cfg num with
  | none => rfl
  | some action =>
    cases action with
    | global a =>
      dsimp only
      rw [regWrites_ite, globalRouted_eq_decide, routed, routed, regWrites_globalWrites]
    | chan a =>
      dsimp only
      rw [regWrites_append, regWrites_ite, regWrites_ite]
      have hA : regWrites (settingWrites .a (actionWrites s.cfg.ccScale val s.cvA.set a)) s =
          controlChange .a num val s :=
        regWrites_actionWrites hmap rfl rfl
      have hcfg : (routed (toA s ch) (controlChange .a num val) s).cfg = s.cfg :=
        routed_keep (P := fun u => u.cfg = s.cfg) _ rfl (controlChange_cfg .a num val s)
      have hsetB : ((routed (toA s ch) (controlChange .a num val) s).chan .b).set = s.cvB.set :=
        routed_keep (P := fun u => (u.chan .b).set = s.cvB.set) _ rfl
          (congrArg Channel.set (controlChange_chan_ne (by decide) num val s))
      rw [routed_congr hA]
      exact congrArg Host.Outcome.next (routed_congr (regWrites_actionWrites hmap hcfg hsetB)).symm

/-- Settles O45: the writes of the statement are the command's, and writes of settings leave the rest. -/
theorem ccIsASequenceOfRegisterWrites : Obligations.CcIsASequenceOfRegisterWrites := by
  refine ⟨fun _ _ _ => rfl, fun ch num val s => ?_⟩
  intro sc v chanWrites globalActionWrites writes
  have hchan : ∀ c a, chanWrites c a = settingWrites c (actionWrites sc val (s.chan c).set a) := by
    intro c a
    cases c <;> cases a <;> rfl
  have hglobal : ∀ a, globalActionWrites a = globalWrites sc val a := by
    intro a
    cases a <;> rfl
  have hwrites : writes = ccWrites ch num val s := by
    simp only [writes, hchan, hglobal]
    rfl
  have hframe := regWrites_settingsOnly (ccWrites ch num val s) s
  refine ⟨_, exec_cc ch num val s, by rw [hwrites]; rfl, fun hmap => ?_, hframe.trace, hframe.seq, hframe.ms,
    hframe.msHiLatch, hframe.advCount, fun c => ⟨hframe.rt c, hframe.out c⟩⟩
  rw [ccWrites, ccAction, hmap]
  rfl

end Sys2Proof.Machine
end

section
/-! The cyclic arithmetic of the step sequencer: pulses per step, the number of advances between two steps, and the
external sequencer's position (43_sequencer.md R230 to R233). -/

namespace Sys2Proof.Machine

theorem pulsesPerStep_of_coarse {d : BitVec 5} (hlow : 13 ≤ d.toNat) (hhigh : d.toNat ≤ 23) :
    pulsesPerStep d = 1 := by
  have hdiv : 24 / d.toNat = 1 := Nat.div_eq_of_lt_le (by omega) (by omega)
  rw [pulsesPerStep, hdiv, max_self]

/-- Settles O49. -/
theorem pulsesPerStepIsFlooredDivision : Obligations.PulsesPerStepIsFlooredDivision :=
  ⟨fun d _ _ => ⟨rfl, pulsesPerStep_pos d, pulsesPerStep_le d⟩, by decide, by decide, by decide,
    fun _ => pulsesPerStep_of_coarse⟩

/-- The two lines of `steps_between` (43_sequencer.md R232). -/
theorem stepsBetween_cast (cur tgt : Int) :
    (stepsBetween cur tgt : Int) = if cur = 0 ∨ cur = tgt then 7 else (tgt - cur - 1) % 8 := by
  unfold stepsBetween
  split
  · rfl
  · exact Int.toNat_of_nonneg (by omega)

/-- The external sequencer goes round its eight steps. -/
theorem extAfter_eq {pos : Nat} (hlow : 1 ≤ pos) (hhigh : pos ≤ 8) (n : Nat) :
    extAfter pos n = (pos + n - 1) % 8 + 1 := by
  induction n generalizing pos with
  | zero => rw [extAfter]; omega
  | succ n ih =>
    rw [extAfter, ih (by rw [extNext]; omega) (by rw [extNext]; omega), extNext]
    omega

/-- `steps_between` stops on the step before the target (43_sequencer.md R232). -/
theorem extAfter_stepsBetween {cur : Nat} (hcur : 1 ≤ cur ∧ cur ≤ 8) (tgt : Nat) :
    extAfter cur (stepsBetween cur tgt) = (tgt + 6) % 8 + 1 := by
  have hsteps := stepsBetween_cast cur tgt
  rw [extAfter_eq hcur.1 hcur.2]
  split at hsteps <;> omega

theorem extAfter_stepsBetween_succ {cur tgt : Nat} (hcur : 1 ≤ cur ∧ cur ≤ 8) (htgt : 1 ≤ tgt ∧ tgt ≤ 8) :
    extAfter cur (stepsBetween cur tgt + 1) = tgt := by
  have hbefore := extAfter_stepsBetween hcur tgt
  rw [extAfter_eq hcur.1 hcur.2] at hbefore ⊢
  omega

/-- Settles O50. -/
theorem stepsBetweenPlusOneLandsOnTarget : Obligations.StepsBetweenPlusOneLandsOnTarget := by
  refine ⟨stepsBetween_cast, stepsBetween_le, fun cur tgt hc1 hc8 ht1 ht8 => ⟨?lands, ?full⟩⟩
  case lands => exact extAfter_stepsBetween_succ ⟨hc1, hc8⟩ ⟨ht1, ht8⟩
  case full =>
    rintro rfl
    simp [stepsBetween]

end Sys2Proof.Machine
end

section
/-! The sequencer commands and the keyboard jump, each as the whole state that it leaves (43_sequencer.md R235 to
R242). -/

namespace Sys2Proof.Machine

/-! ### Transport and the mode switch -/

theorem exec_start (s : State) :
    exec .start s =
      .next (if s.seq.mode = .ccs then
        { s with
          seq := { s.seq with following := true, cnt := 0, step := 0 }
          advCount := s.advCount + BitVec.ofNat 16 (stepsBetween s.seq.step.toNat 1)
          trace := s.trace ++ List.replicate (stepsBetween s.seq.step.toNat 1) .adv }
      else s) := by
  rw [exec, execStart, rewind, adv_eq]
  split <;> rfl

/-- Settles O51. -/
theorem startRepositionsAndFollows : Obligations.StartRepositionsAndFollows := exec_start

theorem exec_stop (s : State) :
    exec .stop s = .next (if s.seq.mode = .ccs then { s with seq := { s.seq with following := false } } else s) := by
  rw [exec, execStop]
  split <;> rfl

theorem exec_cont (s : State) :
    exec .cont s = .next (if s.seq.mode = .ccs then { s with seq := { s.seq with following := true } } else s) := by
  rw [exec, execCont]
  split <;> rfl

/-- Settles O52. -/
theorem stopAndContinueWriteFollowing : Obligations.StopAndContinueWriteFollowing :=
  fun s => ⟨exec_stop s, exec_cont s⟩

/-- The transition repositions from the step that the old mode left. -/
theorem modeTransition_eq (sw : Mode) (s : State) :
    modeTransition sw s =
      { s with
        seq := { s.seq with mode := sw, cnt := 0, step := 0 }
        advCount := s.advCount + BitVec.ofNat 16 (stepsBetween s.seq.step.toNat 1)
        trace := s.trace ++ List.replicate (stepsBetween s.seq.step.toNat 1) .adv } := by
  rw [modeTransition, rewind, adv_eq]
  rfl

/-- Settles O55. -/
theorem pollTransitionsThenSyncs : Obligations.PollTransitionsThenSyncs := by
  intro sw sync s
  simp only [exec, execPoll]
  by_cases hsw : sw = s.seq.mode
  · subst hsw
    cases sync <;> simp [State.updSeq]
  · cases sync <;> simp [hsw, modeTransition_eq, State.updSeq]

/-! ### The clock -/

theorem nextCnt_toNat (clkDiv cnt : BitVec 5) :
    (nextCnt clkDiv cnt).toNat = cnt.toNat % pulsesPerStep clkDiv + 1 := by
  have hmod := Nat.mod_lt cnt.toNat (pulsesPerStep_pos clkDiv)
  have hpps := pulsesPerStep_le clkDiv
  rw [nextCnt, BitVec.toNat_ofNat]
  omega

theorem nextCnt_eq_one_iff (clkDiv cnt : BitVec 5) :
    nextCnt clkDiv cnt = 1 ↔ cnt.toNat % pulsesPerStep clkDiv + 1 = 1 := by
  rw [← nextCnt_toNat, ← BitVec.toNat_inj]
  rfl

theorem exec_clock (s : State) :
    exec .clock s =
      .next (if s.seq.mode = .ccs ∧ s.seq.following = true then
        { s with
          seq := { s.seq with
            cnt := nextCnt s.routing.clkDiv s.seq.cnt
            step := if nextCnt s.routing.clkDiv s.seq.cnt = 1 then nextStep s.seq.step else s.seq.step }
          advCount := if nextCnt s.routing.clkDiv s.seq.cnt = 1 then s.advCount + 1 else s.advCount
          trace := s.trace ++ (if nextCnt s.routing.clkDiv s.seq.cnt = 1 then [.adv] else []) }
      else s) := by
  rw [exec, execClock, clockPulse]
  split
  · by_cases hcnt : nextCnt s.routing.clkDiv s.seq.cnt = 1
    · simp only [updSeq_seq, hcnt, if_true, adv_eq]
      rfl
    · simp only [updSeq_seq, hcnt, if_false, List.append_nil]
      rfl
  · rfl

/-- Settles O53. -/
theorem clockCountsAndAdvances : Obligations.ClockCountsAndAdvances := by
  intro s
  simp only [exec_clock, nextCnt_eq_one_iff]
  rfl

/-! ### The keyboard jump -/

/-- The search from index `i` on finds the first matching entry, counted from `i`. -/
theorem kbdMatch_eq_findIdx? (note : Data7) (i : Nat) (l : List (BitVec 8)) :
    kbdMatch note i l = (l.findIdx? fun k => decide (k = note.setWidth 8)).map (· + i) := by
  induction l generalizing i with
  | nil => rfl
  | cons k ks ih =>
    rw [kbdMatch, List.findIdx?_cons, ih]
    by_cases hk : k = note.setWidth 8
    · simp [hk]
    · simp [hk, Function.comp_def, Nat.add_comm, Nat.add_left_comm]

theorem kbdEntry_eq_iff (k : BitVec 8) (note : Data7) : k = note.setWidth 8 ↔ k.toNat = note.toNat := by bv_omega

theorem kbdMatch_eq_some_iff {note : Data7} {map : Vector (BitVec 8) 8} {i : Fin 8} :
    kbdMatch note 0 map.toList = some i.val ↔
      map[i].toNat = note.toNat ∧ ∀ j : Fin 8, j < i → map[j].toNat ≠ note.toNat := by
  simp only [kbdMatch_eq_findIdx?, Nat.add_zero, Option.map_id', List.findIdx?_eq_some_iff_getElem,
    decide_eq_true_eq, kbdEntry_eq_iff, Vector.getElem_toList, Vector.length_toList]
  constructor
  · rintro ⟨_, hi, hfirst⟩
    exact ⟨hi, fun j hj => hfirst j hj⟩
  · rintro ⟨hi, hfirst⟩
    exact ⟨i.isLt, hi, fun j hj => hfirst ⟨j, by omega⟩ hj⟩

theorem kbdMatch_eq_none_iff {note : Data7} {map : Vector (BitVec 8) 8} :
    kbdMatch note 0 map.toList = none ↔ ∀ i : Fin 8, map[i].toNat ≠ note.toNat := by
  simp only [kbdMatch_eq_findIdx?, Option.map_eq_none_iff, List.findIdx?_eq_none_iff, decide_eq_false_iff_not,
    kbdEntry_eq_iff, Vector.mem_toList_iff]
  constructor
  · exact fun h i => h _ (Vector.getElem_mem i.isLt)
  · intro h k hk
    obtain ⟨i, hi, rfl⟩ := Vector.mem_iff_getElem.1 hk
    exact h ⟨i, hi⟩

theorem kbdJump_of_none {note : Data7} {s : State} (h : kbdMatch note 0 s.routing.kbdMap.toList = none) :
    kbdJump note s = s := by
  rw [kbdJump, h]

theorem kbdJump_of_some {note : Data7} {s : State} {i : Nat}
    (h : kbdMatch note 0 s.routing.kbdMap.toList = some i) :
    kbdJump note s =
      { s with
        seq := { s.seq with step := BitVec.ofNat 4 (i + 1) }
        advCount := s.advCount + BitVec.ofNat 16 (stepsBetween s.seq.step.toNat (i + 1) + 1)
        trace := s.trace ++ List.replicate (stepsBetween s.seq.step.toNat (i + 1) + 1) .adv } := by
  simp only [kbdJump, h, adv_eq]
  rfl

/-- Settles O56. -/
theorem keyboardJumpTakesTheFirstMatch : Obligations.KeyboardJumpTakesTheFirstMatch := fun _ _ =>
  ⟨fun _ hi hfirst =>
    ⟨kbdJump_of_some (kbdMatch_eq_some_iff.2 ⟨hi, hfirst⟩), Nat.succ_pos _,
      Nat.succ_le_succ (stepsBetween_le _ _)⟩,
    fun hno => kbdJump_of_none (kbdMatch_eq_none_iff.2 hno)⟩

end Sys2Proof.Machine
end

section
/-! Clocks over whole steps (43_sequencer.md R238): the clock that begins a step advances, and the clocks up to the
full count only count. -/

namespace Sys2Proof.Machine

theorem execTimes_succ {i : Instr} {s t : State} (h : exec i s = .next t) (n : Nat) :
    execTimes i (n + 1) s = execTimes i n t := by
  rw [execTimes, h]

theorem execTimes_add {i : Instr} {m : Nat} {s t : State} (h : execTimes i m s = .next t) (n : Nat) :
    execTimes i (m + n) s = execTimes i n t := by
  induction m generalizing s with
  | zero => cases h; rw [Nat.zero_add]
  | succ m ih =>
    rw [execTimes] at h
    split at h
    next u hu => rw [Nat.succ_add, execTimes_succ hu, ih h]
    all_goals cases h

/-- A step begun: its pulse is emitted and the count starts over. -/
def stepBegun (s : State) : State :=
  { s with
    seq := { s.seq with cnt := 1, step := nextStep s.seq.step }
    advCount := s.advCount + 1
    trace := s.trace ++ [.adv] }

/-- `k` clocks counted. -/
def counted (k : Nat) (s : State) : State := s.updSeq fun q => { q with cnt := q.cnt + BitVec.ofNat 5 k }

theorem counted_counted (k m : Nat) (s : State) : counted m (counted k s) = counted (k + m) s := by
  simp [counted, State.updSeq, BitVec.add_assoc, BitVec.ofNat_add]

@[simp] theorem counted_routing (k : Nat) (s : State) : (counted k s).routing = s.routing := rfl

theorem counted_cnt_toNat {k : Nat} {s : State} (h : s.seq.cnt.toNat + k < 32) :
    (counted k s).seq.cnt.toNat = s.seq.cnt.toNat + k := by
  rw [counted, updSeq_seq, BitVec.toNat_add, BitVec.toNat_ofNat]
  omega

/-- On a step boundary a clock begins the next step. -/
theorem exec_clock_boundary {s : State} (hmode : s.seq.mode = .ccs) (hfollow : s.seq.following = true)
    (hcnt : s.seq.cnt.toNat % pulsesPerStep s.routing.clkDiv = 0) : exec .clock s = .next (stepBegun s) := by
  have hone : nextCnt s.routing.clkDiv s.seq.cnt = 1 := (nextCnt_eq_one_iff _ _).2 (by omega)
  rw [exec_clock, if_pos ⟨hmode, hfollow⟩]
  simp only [hone, if_true, stepBegun]

/-- Inside a step a clock only counts. -/
theorem exec_clock_inside {s : State} (hmode : s.seq.mode = .ccs) (hfollow : s.seq.following = true)
    (hlow : 1 ≤ s.seq.cnt.toNat) (hhigh : s.seq.cnt.toNat < pulsesPerStep s.routing.clkDiv) :
    exec .clock s = .next (counted 1 s) := by
  have htoNat := nextCnt_toNat s.routing.clkDiv s.seq.cnt
  rw [Nat.mod_eq_of_lt hhigh] at htoNat
  have hnot : nextCnt s.routing.clkDiv s.seq.cnt ≠ 1 := by bv_omega
  have hnext : nextCnt s.routing.clkDiv s.seq.cnt = s.seq.cnt + 1 := by bv_omega
  rw [exec_clock, if_pos ⟨hmode, hfollow⟩]
  simp only [hnot, if_false, List.append_nil]
  rw [hnext]
  rfl

theorem execTimes_clock_inside {s : State} (hmode : s.seq.mode = .ccs) (hfollow : s.seq.following = true)
    (hlow : 1 ≤ s.seq.cnt.toNat) (k : Nat) (hhigh : s.seq.cnt.toNat + k ≤ pulsesPerStep s.routing.clkDiv) :
    execTimes .clock k s = .next (counted k s) := by
  induction k generalizing s with
  | zero => simp [execTimes, counted, State.updSeq]
  | succ k ih =>
    have hpps := pulsesPerStep_le s.routing.clkDiv
    have hcnt : (counted 1 s).seq.cnt.toNat = s.seq.cnt.toNat + 1 := counted_cnt_toNat (by omega)
    rw [execTimes_succ (exec_clock_inside hmode hfollow hlow (by omega)),
      ih (s := counted 1 s) hmode hfollow (by omega) (by rw [hcnt, counted_routing]; omega),
      counted_counted, Nat.add_comm]

/-- A whole step clocked: its pulse is emitted and the count is full. -/
def stepDone (s : State) : State := counted (pulsesPerStep s.routing.clkDiv - 1) (stepBegun s)

theorem stepDone_cnt_toNat (s : State) : (stepDone s).seq.cnt.toNat = pulsesPerStep s.routing.clkDiv := by
  have hpos := pulsesPerStep_pos s.routing.clkDiv
  have hpps := pulsesPerStep_le s.routing.clkDiv
  have hone : (stepBegun s).seq.cnt.toNat = 1 := rfl
  rw [stepDone, counted_cnt_toNat (by omega)]
  omega

theorem execTimes_clock_step {s : State} (hmode : s.seq.mode = .ccs) (hfollow : s.seq.following = true)
    (hcnt : s.seq.cnt.toNat % pulsesPerStep s.routing.clkDiv = 0) :
    execTimes .clock (pulsesPerStep s.routing.clkDiv) s = .next (stepDone s) := by
  have hpos := pulsesPerStep_pos s.routing.clkDiv
  calc
    _ = execTimes .clock (pulsesPerStep s.routing.clkDiv - 1 + 1) s := by rw [Nat.sub_add_cancel hpos]
    _ = execTimes .clock (pulsesPerStep s.routing.clkDiv - 1) (stepBegun s) :=
      execTimes_succ (exec_clock_boundary hmode hfollow hcnt) _
    _ = .next (stepDone s) :=
      execTimes_clock_inside (s := stepBegun s) hmode hfollow (le_refl 1) _ (Nat.add_sub_cancel' hpos).le

theorem nextStep_toNat (step : BitVec 4) : (nextStep step).toNat = extNext step.toNat := by
  rw [nextStep, extNext, BitVec.toNat_ofNat]
  omega

/-- Settles O54, by induction on the number of steps. -/
theorem clocksAdvanceOnceEveryPps : Obligations.ClocksAdvanceOnceEveryPps := by
  intro s n hmode hfollow hcnt
  induction n generalizing s with
  | zero => exact ⟨s, by rw [Nat.zero_mul]; rfl, by simp, rfl, absurd rfl, rfl, rfl⟩
  | succ n ih =>
    have hboundary : s.seq.cnt.toNat % pulsesPerStep s.routing.clkDiv = 0 := by
      obtain hzero | hfull := hcnt
      · rw [hzero]; exact Nat.zero_mod _
      · rw [hfull]; exact Nat.mod_self _
    obtain ⟨t, ht, htrace, hstep, hend, hA, hB⟩ := ih (stepDone s) hmode hfollow (.inr (stepDone_cnt_toNat s))
    refine ⟨t, ?run, htrace.trans (List.append_assoc s.trace [.adv] _), ?step, fun _ => ?full, hA, hB⟩
    case run =>
      rw [Nat.succ_mul, Nat.add_comm, execTimes_add (execTimes_clock_step hmode hfollow hboundary)]
      exact ht
    case step =>
      rw [hstep, extAfter, ← nextStep_toNat]
      rfl
    case full =>
      cases n with
      | zero =>
        rw [Nat.zero_mul] at ht
        cases ht
        exact stepDone_cnt_toNat s
      | succ n => exact hend n.succ_ne_zero

end Sys2Proof.Machine
end

section
/-! The advance pulses and the tracked step of every command, said once; from it which commands emit pulses, and how
the tracked step follows the external sequencer (43_sequencer.md R230 to R243, 93_implementation_defined.md U6). -/

namespace Sys2Proof.Machine

/-! ### Pulses emitted and counted -/

/-- From `s` to `t` the trace grows by events with exactly `n` advance pulses, `adv_count` grows by `n`, and the
tracked step is then `step`. -/
structure Advances (n : Nat) (step : BitVec 4) (s t : State) : Prop where
  step : t.seq.step = step
  advCount : t.advCount = s.advCount + BitVec.ofNat 16 n
  trace : ∃ es, t.trace = s.trace ++ es ∧ advPulses es = n

/-- No pulse is emitted and the tracked step stays. -/
abbrev Quiet (s t : State) : Prop := Advances 0 s.seq.step s t

variable {n : Nat} {k : BitVec 4} {s t u : State}

theorem Advances.pulses (hstep : t.seq.step = k) (hcount : t.advCount = s.advCount + BitVec.ofNat 16 n)
    (htrace : t.trace = s.trace ++ List.replicate n .adv) : Advances n k s t :=
  ⟨hstep, hcount, _, htrace, List.count_replicate_self⟩

theorem Advances.quiet (h : Advances n k s t) (q : Quiet t u) : Advances n k s u where
  step := q.step.trans h.step
  advCount := by rw [q.advCount, h.advCount, BitVec.add_zero]
  trace := by
    obtain ⟨es, hes, hn⟩ := h.trace
    obtain ⟨fs, hfs, hzero⟩ := q.trace
    exact ⟨es ++ fs, by rw [hfs, hes, List.append_assoc], by rw [advPulses_append, hn, hzero, Nat.add_zero]⟩

theorem Quiet.of_eq (hstep : t.seq.step = s.seq.step) (hcount : t.advCount = s.advCount) (htrace : t.trace = s.trace) :
    Quiet s t := Advances.pulses hstep (by rw [hcount, BitVec.add_zero]) (by simp [htrace])

theorem Quiet.refl (s : State) : Quiet s s := .of_eq rfl rfl rfl

theorem quiet_ite {p : Prop} [Decidable p] (ht : p → Quiet s t) (hu : ¬p → Quiet s u) :
    Quiet s (if p then t else u) := by
  split
  · exact ht ‹_›
  · exact hu ‹_›

theorem routed_quiet (p : Bool) {f : State → State} (h : Quiet s (f s)) : Quiet s (routed p f s) :=
  routed_keep p (.refl s) h

/-- An operation of a channel is quiet. -/
theorem ChanStep.quiet {c : Chan} (h : ChanStep c s t) : Quiet s t where
  step := by rw [h.seq]
  advCount := by rw [h.advCount, BitVec.add_zero]
  trace := by
    obtain ⟨es, hes, hno⟩ := h.trace
    exact ⟨es, hes, List.count_eq_zero.2 hno⟩

/-- A write of settings is quiet. -/
theorem SettingsOnly.quiet (h : SettingsOnly s t) : Quiet s t := .of_eq (by rw [h.seq]) h.advCount h.trace

theorem polyNoteOn_quiet (note vel : Data7) (s : State) : Quiet s (polyNoteOn note vel s) :=
  quiet_ite (fun _ => (noteOn_step .a note vel true true s).quiet) fun _ =>
    (noteOn_step .b note vel _ true s).quiet.quiet (emitTrig_step .a _).quiet

theorem monoNoteOn_quiet (ch : MidiChannel) (note vel : Data7) (s : State) : Quiet s (monoNoteOn ch note vel s) :=
  (routed_quiet _ (noteOn_step .a note vel true true s).quiet).quiet
    (routed_quiet _ (noteOn_step .b note vel _ true _).quiet)

theorem polyNoteOff_quiet (note vel : Data7) (s : State) : Quiet s (polyNoteOff note vel s) :=
  quiet_ite (fun _ => (polyRelease_step .a note vel s).quiet) fun _ =>
    quiet_ite (fun _ => (polyRelease_step .b note vel s).quiet) fun _ => .refl s

/-! ### The commands -/

/-- The pulses that a command emits in the state `s` and the tracked step that it leaves: none and the same, or a
repositioning to the step before step 1, the advance of a step boundary, a jump to the step of a matched entry, or a
sync, after a transition or not. -/
inductive Advance (s : State) : Instr → Nat → BitVec 4 → Prop
  | quiet (i : Instr) : Advance s i 0 s.seq.step
  | start (hmode : s.seq.mode = .ccs) : Advance s .start (stepsBetween s.seq.step.toNat 1) 0
  | transition (sw : Mode) (hsw : sw ≠ s.seq.mode) : Advance s (.poll sw false) (stepsBetween s.seq.step.toNat 1) 0
  | sync (sw : Mode) (n : Nat) (hn : n ≤ 7) : Advance s (.poll sw true) n 1
  | clock : Advance s .clock 1 (nextStep s.seq.step)
  | jump (ch : MidiChannel) (note vel : Data7) (i : Nat) (hkbd : toKbd s ch = true)
    (hmatch : kbdMatch note 0 s.routing.kbdMap.toList = some i) :
    Advance s (.noteOn ch note vel) (stepsBetween s.seq.step.toNat (i + 1) + 1) (BitVec.ofNat 4 (i + 1))

theorem Quiet.advance {i : Instr} (h : Quiet s t) : ∃ n k, Advance s i n k ∧ Advances n k s t :=
  ⟨_, _, .quiet i, h⟩

theorem exec_poll_advance {sw : Mode} {sync : Bool} (h : exec (.poll sw sync) s = .next t) :
    ∃ n k, Advance s (.poll sw sync) n k ∧ Advances n k s t := by
  rw [pollTransitionsThenSyncs] at h
  cases h
  cases sync with
  | true =>
    refine ⟨_, _, .sync sw _ ?_, .pulses rfl rfl rfl⟩
    split
    · exact Nat.zero_le 7
    · exact stepsBetween_le _ _
  | false =>
    by_cases hsw : sw = s.seq.mode
    · exact Quiet.advance (.of_eq (by simp [hsw]) (by simp [hsw]) (by simp [hsw]))
    · exact ⟨_, _, .transition sw hsw, .pulses (by simp [hsw]) (by simp [hsw]) (by simp [hsw])⟩

theorem exec_clock_advance (h : exec .clock s = .next t) : ∃ n k, Advance s .clock n k ∧ Advances n k s t := by
  rw [exec_clock] at h
  cases h
  split
  · by_cases hcnt : nextCnt s.routing.clkDiv s.seq.cnt = 1
    · exact ⟨_, _, .clock, .pulses (if_pos hcnt) (if_pos hcnt) (congrArg _ (if_pos hcnt))⟩
    · exact Quiet.advance (.of_eq (if_neg hcnt) (if_neg hcnt) (by simp only [hcnt, if_false, List.append_nil]))
  · exact Quiet.advance (.refl s)

/-- What a note on the keyboard's channel emits is the jump's; the voices are quiet. -/
theorem exec_noteOn_advance {ch : MidiChannel} {note vel : Data7} (h : exec (.noteOn ch note vel) s = .next t) :
    ∃ n k, Advance s (.noteOn ch note vel) n k ∧ Advances n k s t := by
  cases h
  have hvoices (u : State) : Quiet u
      (if u.routing.poly then routed (toA u ch) (polyNoteOn note vel) u else monoNoteOn ch note vel u) :=
    quiet_ite (fun _ => routed_quiet _ (polyNoteOn_quiet note vel u)) fun _ => monoNoteOn_quiet ch note vel u
  suffices hjump : ∃ n k, Advance s (.noteOn ch note vel) n k ∧
      Advances n k s (routed (toKbd s ch) (kbdJump note) s) by
    obtain ⟨n, k, hadvance, hadvances⟩ := hjump
    exact ⟨n, k, hadvance, hadvances.quiet (hvoices _)⟩
  cases hkbd : toKbd s ch with
  | false => exact Quiet.advance (.refl s)
  | true =>
    rw [routed_of_true rfl]
    cases hmatch : kbdMatch note 0 s.routing.kbdMap.toList with
    | none => rw [kbdJump_of_none hmatch]; exact Quiet.advance (.refl s)
    | some i =>
      rw [kbdJump_of_some hmatch]
      exact ⟨_, _, .jump ch note vel i hkbd hmatch, .pulses rfl rfl rfl⟩

/-- The pulses and the tracked step of every command. -/
theorem exec_advance {i : Instr} (h : exec i s = .next t) : ∃ n k, Advance s i n k ∧ Advances n k s t := by
  cases i with
  | poll sw sync => exact exec_poll_advance h
  | clock => exact exec_clock_advance h
  | noteOn ch note vel => exact exec_noteOn_advance h
  | start =>
    rw [exec_start] at h
    cases h
    split
    next hmode => exact ⟨_, _, .start hmode, .pulses rfl rfl rfl⟩
    · exact Quiet.advance (.refl s)
  | cont =>
    rw [exec_cont] at h
    cases h
    exact Quiet.advance (quiet_ite (fun _ => .of_eq rfl rfl rfl) fun _ => .refl s)
  | stop =>
    rw [exec_stop] at h
    cases h
    exact Quiet.advance (quiet_ite (fun _ => .of_eq rfl rfl rfl) fun _ => .refl s)
  | nop => cases h; exact Quiet.advance (.refl s)
  | tick =>
    cases h
    have htime : Quiet s { s with ms := s.ms + 1 } := .of_eq rfl rfl rfl
    exact Quiet.advance ((htime.quiet (tickTimer_step .a _).quiet).quiet (tickTimer_step .b _).quiet)
  | progress => cases h; exact Quiet.advance ((slideProgress_step .a s).quiet.quiet (slideProgress_step .b _).quiet)
  | allNotesOff c => cases h; exact Quiet.advance (allNotesOff_step c s).quiet
  | regWrite a v => cases h; exact Quiet.advance (regWrite_settingsOnly a v s).quiet
  | regRead a =>
    cases h
    have hlatch : Quiet s (readEffect a s) := quiet_ite (fun _ => .of_eq rfl rfl rfl) fun _ => .refl s
    exact Quiet.advance (hlatch.quiet (emit_step .a (.rdata _) _ nofun).quiet)
  | noteOff ch note vel =>
    cases h
    exact Quiet.advance (quiet_ite (fun _ => routed_quiet _ (polyNoteOff_quiet note vel s)) fun _ =>
      (routed_quiet _ (noteOff_step .a note vel s).quiet).quiet (routed_quiet _ (noteOff_step .b note vel _).quiet))
  | cc ch num val => rw [exec_cc] at h; cases h; exact Quiet.advance (regWrites_settingsOnly _ s).quiet
  | pbend ch amount =>
    cases h
    exact Quiet.advance ((routed_quiet _ (pitchBend_step .a amount s).quiet).quiet
      (routed_quiet _ (pitchBend_step .b amount _).quiet))

theorem Advance.le_eight {i : Instr} (h : Advance s i n k) : n ≤ 8 := by
  cases h with
  | quiet | clock => omega
  | start | transition => exact (stepsBetween_le _ _).trans (by omega)
  | sync sw n hn => omega
  | jump => exact Nat.succ_le_succ (stepsBetween_le _ _)

theorem Advance.emitter {i : Instr} (h : Advance s i n k) (hn : n ≠ 0) :
    i = .start ∨ i = .clock ∨ (∃ sw sync, i = .poll sw sync) ∨ ∃ ch note vel, i = .noteOn ch note vel := by
  cases h with
  | quiet => exact absurd rfl hn
  | start => exact .inl rfl
  | clock => exact .inr (.inl rfl)
  | transition | sync => exact .inr (.inr (.inl ⟨_, _, rfl⟩))
  | jump => exact .inr (.inr (.inr ⟨_, _, _, rfl⟩))

/-- Settles O58. -/
theorem onlyFourCommandsEmitPulses : Obligations.OnlyFourCommandsEmitPulses := by
  intro i s t h
  obtain ⟨n, k, hadvance, hadvances⟩ := exec_advance h
  obtain ⟨es, hes, rfl⟩ := hadvances.trace
  exact ⟨es, hes, hadvances.advCount, hadvance.le_eight, hadvance.emitter⟩

/-! ### The tracked step and the external sequencer -/

/-- A tracked step in range is right when it and the external position agree modulo the eight steps. -/
theorem inStep_iff {step : BitVec 4} {pos : Nat} (h : step.toNat ≤ 8) :
    InStep step pos ↔ (1 ≤ pos ∧ pos ≤ 8) ∧ pos % 8 = step.toNat % 8 := by
  unfold InStep
  split
  next hzero =>
    have : step.toNat = 0 := by rw [hzero]; rfl
    omega
  next hpos =>
    have : step.toNat ≠ 0 := fun h => hpos (BitVec.eq_of_toNat_eq h)
    omega

theorem InStep.pos_eq {step : BitVec 4} {pos : Nat} (h : InStep step pos) (hstep : step ≠ 0) : pos = step.toNat := by
  rwa [InStep, if_neg hstep] at h

section
variable {pos : Nat} (hle : s.seq.step.toNat ≤ 8) (hin : InStep s.seq.step pos)
include hle hin

theorem inStep_advance_one : InStep (nextStep s.seq.step) (extAfter pos 1) := by
  obtain ⟨⟨hlow, hhigh⟩, hmod⟩ := (inStep_iff hle).1 hin
  rw [inStep_iff (nextStep_le _), nextStep_toNat, extNext, extAfter_eq hlow hhigh]
  omega

/-- A repositioning that knows where it starts ends before step 1. -/
theorem inStep_rewind (hstep : s.seq.step ≠ 0) : InStep 0 (extAfter pos (stepsBetween s.seq.step.toNat 1)) := by
  obtain ⟨hrange, -⟩ := (inStep_iff hle).1 hin
  rw [hin.pos_eq hstep] at hrange ⊢
  exact extAfter_stepsBetween hrange 1

/-- A jump that knows where it starts lands on its step. -/
theorem inStep_jump (hstep : s.seq.step ≠ 0) {i : Nat} (hi : i < 8) :
    InStep (BitVec.ofNat 4 (i + 1)) (extAfter pos (stepsBetween s.seq.step.toNat (i + 1) + 1)) := by
  obtain ⟨hrange, -⟩ := (inStep_iff hle).1 hin
  have htoNat : (BitVec.ofNat 4 (i + 1)).toNat = i + 1 := by rw [BitVec.toNat_ofNat]; omega
  have hne : BitVec.ofNat 4 (i + 1) ≠ 0 := fun hzero => by simp [hzero] at htoNat
  rw [hin.pos_eq hstep] at hrange
  rw [InStep, if_neg hne, htoNat, hin.pos_eq hstep]
  exact extAfter_stepsBetween_succ (tgt := i + 1) hrange ⟨by omega, by omega⟩

/-- What a command emits keeps the tracked step right, but for the excepted sequences. -/
theorem Advance.inStep {i : Instr} (h : Advance s i n k) (hsync : ¬Desyncs s i) : InStep k (extAfter pos n) := by
  cases h with
  | quiet => exact hin
  | clock => exact inStep_advance_one hle hin
  | start hmode => exact inStep_rewind hle hin fun hzero => hsync ⟨hmode, hzero⟩
  | transition sw hsw => exact inStep_rewind hle hin fun hzero => hsync (.inl ⟨hsw, hzero⟩)
  | sync => exact absurd (.inr rfl) hsync
  | jump ch note vel j hkbd hmatch =>
    have hj : j < 8 := by simpa using (kbdMatch_bound hmatch).2
    exact inStep_jump hle hin (fun hzero => hsync ⟨hkbd, hzero, by rw [hmatch]; rfl⟩) hj

end

/-- Settles O13: each command's pulses take the external sequencer where its tracked step says. -/
theorem trackedStepFollowsTheExternalSequencer : Obligations.TrackedStepFollowsTheExternalSequencer := by
  intro i s t pos hinv hin hsync h
  obtain ⟨n, k, hadvance, hadvances⟩ := exec_advance h
  obtain ⟨es, hes, hn⟩ := hadvances.trace
  refine ⟨n, by rw [hes, advPulses_append, hn], ?_⟩
  rw [hadvances.step]
  exact hadvance.inStep hinv.seq.step hin hsync

end Sys2Proof.Machine
end

section
/-! The MIDI event router: its four commands whole (44_router.md R260 to R272), and which channels each can reach. -/

namespace Sys2Proof.Machine

/-! ### The routing predicates, and routing by one of them -/

theorem toA_eq_decide (s : State) (ch : MidiChannel) : toA s ch = decide (ch = s.routing.chanA) := rfl

theorem toB_eq_decide (s : State) (ch : MidiChannel) : toB s ch = decide (ch = s.routing.chanB) := rfl

theorem toKbd_eq_decide (s : State) (ch : MidiChannel) :
    toKbd s ch = decide (s.seq.mode = .kcs ∧ ch = s.routing.chanKbd) := by
  cases hmode : s.seq.mode <;> simp [toKbd, modeBit, hmode, Bool.beq_eq_decide_eq]

theorem velBOk_eq_decide (s : State) :
    velBOk s = decide (s.routing.suppressVelBKcs = false ∨ s.seq.mode = .ccs) := by
  have hccs : (s.seq.mode == .ccs) = decide (s.seq.mode = .ccs) := by cases s.seq.mode <;> rfl
  rw [velBOk, hccs, Bool.decide_or]
  cases s.routing.suppressVelBKcs <;> rfl

theorem routed_decide (p : Prop) [Decidable p] (f : State → State) (s : State) :
    routed (decide p) f s = if p then f s else s := by
  by_cases hp : p <;> simp [routed, hp]

/-! ### `NOTE_ON` -/

/-- The state in which the voices of a note are chosen: the keyboard jump has run, if the note is the keyboard's
(44_router.md R262). -/
def jumped (ch : MidiChannel) (note : Data7) (s : State) : State :=
  if s.seq.mode = .kcs ∧ ch = s.routing.chanKbd then kbdJump note s else s

/-- The keyboard jump emits pulses and moves the tracked step (43_sequencer.md R242), which the choice of the voices
does not read. -/
theorem jumped_eq (ch : MidiChannel) (note : Data7) (s : State) :
    ∃ n k, jumped ch note s = (adv n s).updSeq fun q => { q with step := k } := by
  unfold jumped kbdJump
  split
  · split
    · exact ⟨0, s.seq.step, rfl⟩
    · exact ⟨_, _, rfl⟩
  · exact ⟨0, s.seq.step, rfl⟩

@[simp] theorem jumped_cvA (ch : MidiChannel) (note : Data7) (s : State) : (jumped ch note s).cvA = s.cvA := by
  obtain ⟨n, k, h⟩ := jumped_eq ch note s
  simp [h]

@[simp] theorem jumped_cvB (ch : MidiChannel) (note : Data7) (s : State) : (jumped ch note s).cvB = s.cvB := by
  obtain ⟨n, k, h⟩ := jumped_eq ch note s
  simp [h]

@[simp] theorem jumped_routing (ch : MidiChannel) (note : Data7) (s : State) :
    (jumped ch note s).routing = s.routing := by
  obtain ⟨n, k, h⟩ := jumped_eq ch note s
  simp [h]

@[simp] theorem jumped_mode (ch : MidiChannel) (note : Data7) (s : State) :
    (jumped ch note s).seq.mode = s.seq.mode := by
  obtain ⟨n, k, h⟩ := jumped_eq ch note s
  simp [h]

theorem toA_jumped (ch : MidiChannel) (note : Data7) (s : State) : toA (jumped ch note s) ch = toA s ch := by
  rw [toA, toA, jumped_routing]

theorem jumped_of_ne {ch : MidiChannel} {s : State} (h : ch ≠ s.routing.chanKbd) (note : Data7) :
    jumped ch note s = s :=
  if_neg fun hkbd => h hkbd.2

theorem exec_noteOn (ch : MidiChannel) (note vel : Data7) (s : State) :
    let j := jumped ch note s
    exec (.noteOn ch note vel) s =
      .next (if s.routing.poly then routed (toA s ch) (polyNoteOn note vel) j else monoNoteOn ch note vel j) := by
  intro j
  have hj : routed (toKbd s ch) (kbdJump note) s = j := by rw [toKbd_eq_decide, routed_decide]; rfl
  rw [exec, execNoteOn, hj]
  simp only [j, toA_jumped, jumped_routing]

/-- Settles O40: what the allocation reads after the jump, it could read before. -/
theorem noteOnRoutesTheNote : Obligations.NoteOnRoutesTheNote := by
  intro ch note vel s jump velB poly monoA mono
  have hvel : velBOk (jumped ch note s) = velB := by
    rw [velBOk_eq_decide, jumped_routing, jumped_mode]
  have hpoly : routed (toA s ch) (polyNoteOn note vel) (jumped ch note s) = poly := by
    rw [toA_eq_decide, routed_decide, polyNoteOn, hvel, jumped_cvA]
    rfl
  have hmono : monoNoteOn ch note vel (jumped ch note s) = mono := by
    rw [monoNoteOn, hvel, toA_eq_decide, toB_eq_decide, routed_decide, routed_decide, jumped_routing]
    rfl
  rw [exec_noteOn, hpoly, hmono]

theorem noteOn_holds (c : Chan) (note vel : Data7) (sendVelocity addToHistory : Bool) (s : State) :
    let t := noteOn c note vel sendVelocity addToHistory s
    isHeld (t.chan c).rt.held note = true ∧ (t.chan c).rt.endNote = note := by
  simp [noteOn_chan_self, isHeld_holdNote]

/-- Settles O41: the channel that the note does not go to keeps its registers, but for CV-A's line. -/
theorem polyphonicNoteGoesToOneVoice : Obligations.PolyphonicNoteGoesToOneVoice := by
  intro ch note vel s hpoly
  refine ⟨_, by rw [exec_noteOn, if_pos hpoly], fun hA hfree => ?free, fun hA htaken => ?taken,
    fun hother => ?other⟩
  case free =>
    rw [toA_eq_decide, routed_decide, if_pos hA, polyNoteOn, jumped_cvA, if_pos hfree]
    have hB := (noteOn_step .a note vel true true (jumped ch note s)).other .b nofun
    exact ⟨hB.trans (jumped_cvB ch note s), noteOn_holds .a note vel true true _⟩
  case taken =>
    rw [toA_eq_decide, routed_decide, if_pos hA, polyNoteOn, jumped_cvA, if_neg htaken]
    generalize hu : noteOn .b note vel (velBOk (jumped ch note s)) true (jumped ch note s) = u
    have huA : u.chan .a = s.cvA := by
      rw [← hu, (noteOn_step .b _ _ _ _ _).other .a nofun]
      exact jumped_cvA ch note s
    have hB : (emitTrig .a u).cvB = u.cvB := (emitTrig_step .a u).other .b nofun
    have htrig : (emitTrig .a u).cvA = _ := emitTrig_chan_registers .a u
    rw [htrig, hB, huA]
    refine ⟨rfl, rfl, rfl, fun hmode => if_neg hmode, ?_⟩
    rw [← hu]
    exact noteOn_holds .b note vel _ true _
  case other =>
    rw [toA_eq_decide, routed_decide, if_neg hother]
    exact ⟨jumped_cvA ch note s, jumped_cvB ch note s⟩

/-! ### `NOTE_OFF` -/

/-- The release of a polyphonic voice, with the explicit clear written out (44_router.md R268). -/
theorem polyRelease_eq (c : Chan) (note vel : Data7) (s : State) :
    let t := noteOff c note vel s
    polyRelease c note vel s =
      if (t.chan c).rt.held = 0 then
        { t.setChan c { t.chan c with out := { (t.chan c).out with trigLine := false, trigCnt := 0 } } with
          trace := t.trace ++ [.line c false] }
      else t := by
  rw [polyRelease, lineClear_eq]

/-- Settles O42. -/
theorem noteOffRoutesTheRelease : Obligations.NoteOffRoutesTheRelease := by
  intro ch note vel s release poly monoA mono
  have hrelease : ∀ c, polyRelease c note vel s = release c := fun c => polyRelease_eq c note vel s
  have hpoly : routed (toA s ch) (polyNoteOff note vel) s = poly := by
    rw [toA_eq_decide, routed_decide, polyNoteOff, hrelease, hrelease]
  have hmono : routed (toB s ch) (noteOff .b note vel) (routed (toA s ch) (noteOff .a note vel) s) = mono := by
    rw [toA_eq_decide, toB_eq_decide, routed_decide, routed_decide]
  rw [exec, execNoteOff, hpoly, hmono]

/-- With no note held, no retrigger mode selects one (40_cv_channel.md R136 to R139). -/
theorem selectNext_of_none_held {r : Runtime} (h : r.held = 0) (mode : RetrigMode) : selectNext mode r = none := by
  have hnone : ∀ m, isHeld r.held m = false := (held_eq_zero_iff _).1 h
  cases mode with
  | off => rfl
  | highest => exact (highest_eq_none_iff r).2 hnone
  | lowest => exact (lowest_eq_none_iff r).2 hnone
  | latest => exact (latest_eq_none_iff r).2 fun _ _ => hnone _

/-- Releasing the only held note plays nothing again, and lowers the line in Gate mode (40_cv_channel.md R140). -/
theorem noteOff_of_last {c : Chan} {note : Data7} {s : State} (h : dropNote (s.chan c).rt.held note = 0)
    (vel : Data7) :
    let released := s.updRt c fun r => { r with held := 0 }
    noteOff c note vel s = if (s.chan c).set.trigMode = .gate then lineClear c released else released := by
  intro released
  have hreleased : s.updRt c (fun r => { r with held := dropNote r.held note }) = released := by
    simp only [released, State.updRt, h]
  have hresound : resound c vel released = released := by
    rw [resound_eq, selectNext_of_none_held (by simp [released])]
    rfl
  have hzero : (released.chan c).rt.held = 0 := by simp [released]
  have hset : (released.chan c).set = (s.chan c).set := by simp [released]
  simp only [noteOff, hreleased, hresound, hzero, hset, true_and]

/-- In Gate mode the release lowers the line, and the explicit clear lowers it in every mode (44_router.md R268). -/
theorem polyRelease_of_last {c : Chan} {note : Data7} {s : State} (h : dropNote (s.chan c).rt.held note = 0)
    (vel : Data7) :
    polyRelease c note vel s =
      { s.setChan c
          { s.chan c with
            rt := { (s.chan c).rt with held := 0 }
            out := { (s.chan c).out with trigLine := false, trigCnt := 0 } } with
        trace := s.trace ++
          List.replicate (if (s.chan c).set.trigMode = .gate then 2 else 1) (.line c false) } := by
  refine (polyRelease_step c note vel s).eq_of ?_ ?_
  all_goals
    rw [polyRelease, noteOff_of_last h]
    by_cases hgate : (s.chan c).set.trigMode = .gate <;> simp [hgate, List.replicate_succ]

/-- Settles O43. -/
theorem polyphonicReleaseClearsTheLine : Obligations.PolyphonicReleaseClearsTheLine := by
  intro note vel s hpoly hheld hlast
  have hexec : exec (.noteOff s.routing.chanA note vel) s = .next (polyRelease .a note vel s) := by
    simp [exec, execNoteOff, polyNoteOff, routed, toA, hpoly, hheld]
  rw [hexec]
  exact congrArg Host.Outcome.next (polyRelease_of_last (c := .a) hlast vel)

/-! ### `CC` and `PBEND` -/

/-- A command that is routed to each channel alone, where what it makes of a channel depends on that channel, the
configuration and the time: CV-A's part leaves all that CV-B's reads, and its events come first. -/
theorem routed_both {s : State} {f : Chan → State → State} {made : Chan → Channel} {es : Chan → List OutEvent}
    (hf : ∀ c (u : State), u.cfg = s.cfg → u.ms = s.ms → u.chan c = s.chan c →
      f c u = { u.setChan c (made c) with trace := u.trace ++ es c })
    (pA pB : Prop) [Decidable pA] [Decidable pB] :
    routed (decide pB) (f .b) (routed (decide pA) (f .a) s) =
      { s with
        cvA := if pA then made .a else s.cvA
        cvB := if pB then made .b else s.cvB
        trace := s.trace ++ (if pA then es .a else []) ++ (if pB then es .b else []) } := by
  have hA : routed (decide pA) (f .a) s =
      { s with cvA := if pA then made .a else s.cvA, trace := s.trace ++ if pA then es .a else [] } := by
    rw [routed_decide, hf .a s rfl rfl rfl]
    split
    · rfl
    · rw [List.append_nil]
  rw [hA, routed_decide]
  split
  · exact hf .b _ rfl rfl rfl
  · rw [List.append_nil]

theorem controlChange_of_chan {num : Data7} {s : State} {a : ChanAction}
    (h : s.cfg.ccMap.lookup num = some (.chan a)) (c : Chan) (val : Data7) :
    controlChange c num val s =
      s.setChan c { s.chan c with set := chanAction s.cfg.ccScale a val (s.chan c).set } := by
  rw [controlChange, ccAction, h]
  rfl

/-- Settles O44. -/
theorem ccRoutesTheAction : Obligations.CcRoutesTheAction := by
  intro ch num val s
  refine congrArg Host.Outcome.next ?_
  rw [ccAction]
  cases hmap : s.cfg.ccMap.lookup num with
  | none => rfl
  | some action =>
    cases action with
    | global a =>
      dsimp only
      rw [globalRouted_eq_decide, routed_decide]
      rfl
    | chan a =>
      have haction : ∀ c (u : State), u.cfg = s.cfg → u.ms = s.ms → u.chan c = s.chan c →
          controlChange c num val u =
            { u.setChan c { s.chan c with set := chanAction s.cfg.ccScale a val (s.chan c).set } with
              trace := u.trace ++ [] } := by
        intro c u hcfg _ hchan
        rw [controlChange_of_chan (hcfg ▸ hmap), hchan, hcfg, List.append_nil, ← setChan_trace u c]
      dsimp only
      rw [toA_eq_decide, toB_eq_decide, routed_both haction]
      simp only [ite_self, List.append_nil]
      rfl

/-- `pitch_bend` whole: the channel and its one event (41_cv_pipeline.md R182). -/
theorem pitchBend_eq (c : Chan) (amount : BitVec 14) (s : State) :
    let ch := { s.chan c with rt := { (s.chan c).rt with pb := amount } }
    let code := BitVec.ofInt 12 (currentCode s.cfg s.ms ch)
    pitchBend c amount s =
      { s.setChan c { ch with out := { ch.out with dacCode := code } } with
        trace := s.trace ++ [.dac c (dacFrame s.cfg c code)] } := by
  refine (pitchBend_step c amount s).eq_of ?_ ?_
  all_goals simp [pitchBend, writeCurrent]

/-- Settles O31. -/
theorem pbendStoresAndSendsAtOnce : Obligations.PbendStoresAndSendsAtOnce := by
  intro ch amount s rt code
  have hbend : ∀ c (u : State), u.cfg = s.cfg → u.ms = s.ms → u.chan c = s.chan c →
      pitchBend c amount u =
        { u.setChan c { s.chan c with
            rt := rt (s.chan c), out := { (s.chan c).out with dacCode := code (s.chan c) } } with
          trace := u.trace ++ [.dac c (dacFrame s.cfg c (code (s.chan c)))] } := by
    intro c u hcfg hms hchan
    rw [pitchBend_eq, hcfg, hms, hchan]
  exact congrArg Host.Outcome.next (routed_both hbend (ch = s.routing.chanA) (ch = s.routing.chanB))

/-! ### Which channels an event command reaches -/

/-- From `s` to `t` only what the MIDI channel `ch` names has changed (44_router.md R260): CV-B is named also by
CV-A's MIDI channel in polyphonic allocation (R263). -/
def ReachesOnly (ch : MidiChannel) (s t : State) : Prop :=
  (ch ≠ s.routing.chanA → ch ≠ s.routing.chanB → ch ≠ s.routing.chanKbd → t = s) ∧
  (ch ≠ s.routing.chanA → t.cvA = s.cvA) ∧
  (s.routing.poly = false → ch ≠ s.routing.chanB → t.cvB = s.cvB)

section
variable {ch : MidiChannel} {s t : State}

theorem ReachesOnly.refl (ch : MidiChannel) (s : State) : ReachesOnly ch s s :=
  ⟨fun _ _ _ => rfl, fun _ => rfl, fun _ _ => rfl⟩

theorem routed_of_false {p : Bool} (h : p = false) (f : State → State) (s : State) : routed p f s = s := by
  rw [h]
  rfl

/-- Two steps, each of the channel that it is routed to, leave the other channel. -/
theorem reachesOnly_routed {fA fB : State → State} (hA : ∀ u, (fA u).chan .b = u.chan .b)
    (hB : ∀ u, (fB u).chan .a = u.chan .a) :
    ReachesOnly ch s (routed (toB s ch) fB (routed (toA s ch) fA s)) := by
  have hskipA (hne : ch ≠ s.routing.chanA) : routed (toA s ch) fA s = s := routed_of_false (beq_false_of_ne hne) fA s
  have hskipB (hne : ch ≠ s.routing.chanB) (u : State) : routed (toB s ch) fB u = u :=
    routed_of_false (beq_false_of_ne hne) fB u
  refine ⟨fun hneA hneB _ => ?none, fun hneA => ?cvA, fun _ hneB => ?cvB⟩
  case none => rw [hskipB hneB, hskipA hneA]
  case cvA =>
    rw [hskipA hneA]
    exact routed_keep (P := fun u => u.cvA = s.cvA) _ rfl (hB s)
  case cvB =>
    rw [hskipB hneB]
    exact routed_keep (P := fun u => u.cvB = s.cvB) _ rfl (hA s)

/-- The polyphonic voices are reached on CV-A's MIDI channel only. -/
theorem reachesOnly_poly (hpoly : s.routing.poly = true) (f : State → State) :
    ReachesOnly ch s (routed (toA s ch) f s) := by
  have hkeep (hne : ch ≠ s.routing.chanA) : routed (toA s ch) f s = s := routed_of_false (beq_false_of_ne hne) f s
  exact ⟨fun hne _ _ => hkeep hne, fun hne => by rw [hkeep hne], fun hmono => by simp [hpoly] at hmono⟩

theorem noteOff_reachesOnly {note vel : Data7} (h : exec (.noteOff ch note vel) s = .next t) : ReachesOnly ch s t := by
  cases h
  split
  next hpoly => exact reachesOnly_poly hpoly _
  next =>
    exact reachesOnly_routed (fun u => (noteOff_step .a note vel u).other .b nofun)
      fun u => (noteOff_step .b note vel u).other .a nofun

/-- The keyboard jump, which comes first, leaves the channels and needs the keyboard's MIDI channel. -/
theorem noteOn_reachesOnly {note vel : Data7} (h : exec (.noteOn ch note vel) s = .next t) : ReachesOnly ch s t := by
  have hjump : ReachesOnly ch (jumped ch note s) t := by
    rw [exec_noteOn] at h
    cases h
    split
    next hpoly =>
      rw [← toA_jumped ch note s]
      exact reachesOnly_poly (by rw [jumped_routing, hpoly]) _
    next =>
      exact reachesOnly_routed (fun u => (noteOn_step .a note vel true true u).other .b nofun)
        fun u => (noteOn_step .b note vel _ true u).other .a nofun
  unfold ReachesOnly at hjump
  rw [jumped_routing, jumped_cvA, jumped_cvB] at hjump
  obtain ⟨hnone, hA, hB⟩ := hjump
  exact ⟨fun hneA hneB hneKbd => (hnone hneA hneB hneKbd).trans (jumped_of_ne hneKbd note), hA, hB⟩

/-- A global action writes no channel. -/
theorem cc_reachesOnly {num val : Data7} (h : exec (.cc ch num val) s = .next t) : ReachesOnly ch s t := by
  cases h
  split
  next => exact .refl ch s
  next a _ =>
    have hkeep (c : Chan) : (routed (globalRouted s ch) (globalChange a val) s).chan c = s.chan c :=
      routed_keep (P := fun u => u.chan c = s.chan c) _ rfl (by cases c <;> rfl)
    refine ⟨fun hneA hneB hneKbd => ?_, fun _ => hkeep .a, fun _ _ => hkeep .b⟩
    exact routed_of_false (by simp [globalRouted, hneA, hneB, hneKbd]) _ s
  next =>
    exact reachesOnly_routed (controlChange_chan_ne (by decide) num val) (controlChange_chan_ne (by decide) num val)

theorem pbend_reachesOnly {amount : BitVec 14} (h : exec (.pbend ch amount) s = .next t) : ReachesOnly ch s t := by
  cases h
  exact reachesOnly_routed (fun u => (pitchBend_step .a amount u).other .b nofun)
    fun u => (pitchBend_step .b amount u).other .a nofun

end

/-- Settles O59. -/
theorem eventsReachOnlyTheirChannels : Obligations.EventsReachOnlyTheirChannels := by
  intro i s t ch d1 d2 amount hi h
  simp only [List.mem_cons, List.not_mem_nil, or_false] at hi
  rcases hi with rfl | rfl | rfl | rfl
  · exact noteOn_reachesOnly h
  · exact noteOff_reachesOnly h
  · exact cc_reachesOnly h
  · exact pbend_reachesOnly h

end Sys2Proof.Machine
end

section
/-! The system commands whole: `NOP`, `TICK` and `REG_READ` (45_system.md R290, R291, R294). -/

namespace Sys2Proof.Machine

/-! ### `NOP` -/

/-- Settles O14. -/
theorem nopChangesNothing : Obligations.NopChangesNothing := fun _ => rfl

/-! ### `TICK` -/

/-- The level that a release timer on its last tick emits (45_system.md R291). -/
def timerEvents (c : Chan) (o : Outputs) : List OutEvent := if o.trigCnt = 1 then [.line c false] else []

/-- One timer's tick whole: the three cases are no pending timer, the last tick and an earlier one. -/
theorem tickTimer_eq (c : Chan) (s : State) :
    tickTimer c s =
      { s.updOut c tickOut with trace := s.trace ++ timerEvents c (s.chan c).out } := by
  unfold tickTimer
  split
  next hnone =>
    have hkeep : s.updOut c tickOut = s := by
      rw [State.updOut, tickOut, if_pos hnone]
      exact setChan_chan s c
    simp [hkeep, timerEvents, hnone]
  next hpending =>
    split
    next hlast => simp [State.emit, State.updOut, tickOut, timerEvents, hlast]
    next hearlier =>
      have hcount : s.updOut c tickOut = s.updOut c fun o => { o with trigCnt := o.trigCnt - 1 } := by
        simp only [State.updOut, tickOut, if_neg hpending, if_neg hearlier]
      rw [hcount, timerEvents, if_neg hearlier, List.append_nil]
      cases c <;> rfl

/-- Settles O15: the second timer finds its own channel as it was and the first timer's event already emitted. -/
theorem tickCountsTimeAndEndsPulses : Obligations.TickCountsTimeAndEndsPulses := by
  intro s
  rw [exec, execTick, tickTimer_eq, tickTimer_eq]
  rfl

/-! ### `REG_READ` -/

theorem regAt_eq_some_iff {a : RegAddr} {r : Reg} : regAt a = some r ↔ a = r.addr :=
  ⟨fun h => (addr_of_regAt h).symm, fun h => h ▸ regAt_addr r⟩

/-- Only a read of `MS_LO` latches. -/
theorem readEffect_eq (a : RegAddr) (s : State) :
    readEffect a s = { s with msHiLatch := if a = 0x82 then s.ms.extractLsb' 16 16 else s.msHiLatch } := by
  have hmsLo : regAt a = some .msLo ↔ a = 0x82 := regAt_eq_some_iff
  simp only [readEffect, hmsLo]
  split <;> rfl

/-- Settles O17. -/
theorem regReadEmitsTheValue : Obligations.RegReadEmitsTheValue := by
  intro a s
  rw [exec, execRegRead, readEffect_eq]
  rfl

end Sys2Proof.Machine
end

section
/-! Every command and every step completes, and the order in which the environment presents the commands that are ready
together (60_exceptions.md R310, R322). -/

namespace Sys2Proof.Machine

/-! ### Completion -/

/-- Every arm of `exec` ends in a next state; the four that ask first for the sequencer's mode have theirs written out
whole. -/
theorem exec_completes (i : Instr) (s : State) : ∃ t, exec i s = .next t := by
  cases i with
  | clock => exact ⟨_, exec_clock s⟩
  | start => exact ⟨_, exec_start s⟩
  | cont => exact ⟨_, exec_cont s⟩
  | stop => exact ⟨_, exec_stop s⟩
  | _ => exact ⟨_, rfl⟩

/-- A step is idle, or runs the command of the next word, or takes a reserved word. -/
theorem step_completes (s : State) : ∃ t, step s = .next t := by
  cases hport : s.port with
  | nil => exact ⟨s, step_idle hport⟩
  | cons w rest =>
    rw [← present_take hport]
    cases hdecode : decode w with
    | ok i =>
      rw [step_present hdecode]
      exact exec_completes i _
    | error r => exact ⟨_, step_present_reserved hdecode _⟩

/-- Settles O8. -/
theorem everyCommandCompletes : Obligations.EveryCommandCompletes := ⟨exec_completes, step_completes⟩

/-! ### Arbitration -/

/-- Insertion by rank is the library's insertion into a sorted list. -/
theorem insertByPriority_eq_orderedInsert (i : Instr) (is : List Instr) :
    insertByPriority i is = is.orderedInsert (Order.Preimage priority (· ≤ ·)) i := by
  induction is with
  | nil => rfl
  | cons j js ih =>
    rw [insertByPriority, ih, List.orderedInsert_cons]
    rfl

/-- So arbitration is the library's insertion sort. -/
theorem arbitrate_eq_insertionSort (ready : List Instr) :
    arbitrate ready = ready.insertionSort (Order.Preimage priority (· ≤ ·)) := by
  rw [arbitrate, funext₂ insertByPriority_eq_orderedInsert, List.insertionSort]

theorem arbitrate_perm (ready : List Instr) : (arbitrate ready).Perm ready :=
  arbitrate_eq_insertionSort ready ▸ List.perm_insertionSort _ ready

theorem arbitrate_pairwise (ready : List Instr) :
    (arbitrate ready).Pairwise fun i j => priority i ≤ priority j :=
  arbitrate_eq_insertionSort ready ▸ List.pairwise_insertionSort (Order.Preimage priority (· ≤ ·)) ready

/-- The commands of one rank are sorted as they arrive, so sorting keeps them as a sublist; they are as many after it as
before, so they are all that it has of their rank. -/
theorem filter_priority_arbitrate (p : Nat) (ready : List Instr) :
    (arbitrate ready).filter (fun i => priority i == p) = ready.filter fun i => priority i == p := by
  have hsorted : (ready.filter fun i => priority i == p).Pairwise (Order.Preimage priority (· ≤ ·)) := by
    refine List.pairwise_of_forall_mem_list fun i hi j hj => ?_
    have hrank {k : Instr} (hk : k ∈ ready.filter fun i => priority i == p) : priority k = p :=
      beq_iff_eq.1 (List.mem_filter.1 hk).2
    rw [Order.Preimage, hrank hi, hrank hj]
  have hkept : (ready.filter fun i => priority i == p).Sublist (arbitrate ready) :=
    arbitrate_eq_insertionSort ready ▸ List.sublist_insertionSort hsorted List.filter_sublist
  have hsub := hkept.filter fun i => priority i == p
  simp only [List.filter_filter, Bool.and_self] at hsub
  exact (hsub.eq_of_length ((arbitrate_perm ready).symm.filter _).length_eq).symm

/-- Settles O60: the ranks are the table's, and arbitration is a stable sort by them. -/
theorem arbitrationOrdersByRank : Obligations.ArbitrationOrdersByRank := by
  refine ⟨?ranks, fun ready =>
    ⟨arbitrate_perm ready, arbitrate_pairwise ready, fun p => filter_priority_arbitrate p ready⟩⟩
  case ranks => simp [priority]

end Sys2Proof.Machine
end
